-- ==== Sys2Proof/Word.lean ====
section
/-! DEFINITION. The byte, and the plain kinds of number the datasheet names (00_scope.md, "Units and conventions"). -/

namespace Sys2Proof

/-- One byte as it crosses a pin or stands in the store (12_formats.md: bit 7 is the most significant bit). -/
abbrev Byte := BitVec 8

/-- A mover ID: 1 to 4095, 0 for "no mover" where a field may be empty (00_scope.md, "Mover ID"). -/
abbrev MoverId := Nat

/-- A station address: 0 to 62; 63 is broadcast or NONE (00_scope.md, "Station address"). -/
abbrev Address := Nat

/-- A global zone number, 0 to 5591 (R3). -/
abbrev ZoneNo := Nat

/-- A global position in track units, 0 to 16,777,215 (R1). -/
abbrev Position := Nat

end Sys2Proof
end

