-- ==== Sys2Proof/Config.lean ====
section
/-! DEFINITION. The fixed sizes of the part, and the free values: what the datasheet leaves open, as constants
with no body, so that nothing can be proved about their value. -/

namespace Sys2Proof.Config

/-- Length of a zone in track units (R3). -/
def zoneLength : Nat := 3000

/-- The highest global zone number (R3). -/
def lastZone : Nat := 5591

/-- The highest position (R1). -/
def maxPosition : Nat := 16777215

/-- The highest position that lies in a zone (R3). -/
def maxZonedPosition : Nat := 16775999

/-- Entries of the Mover Table (R5). -/
def tableSize : Nat := 12

/-- Claims in one wait list (R21). -/
def waitListSize : Nat := 4

/-- Records of a move queue (R44). -/
def moveQueueSize : Nat := 8

/-- Entries of the Send List (R101). -/
def sendListSize : Nat := 8

/-- Frames of the receive queue (R106). -/
def rxQueueSize : Nat := 8

/-- Entries of the pending order table (R125). -/
def orderTableSize : Nat := 4

/-- Mover IDs in the watch list (R133). -/
def watchListSize : Nat := 16

/-- Records of the Report Queue (R168). -/
def reportQueueSize : Nat := 32

/-- Bytes of a store page and of the write buffer (R173, R176). -/
def pageSize : Nat := 64

/-- Where the 16-bit counters stay once they get there (R110, R143). -/
def counterTop : Nat := 65535

/-- FREE VALUE (log entry 8). Whether byte `offset` of a page was already changed when a pin reset abandoned the
operation that a counter of State numbers `n` (R175: each byte holds either its old value or the new one). -/
opaque abandonedByteChanged (n offset : Nat) : Bool

/-- FREE VALUE (log entry 9). Which of several trip inputs found active together is taken first (R157: "in either
order"); used modulo their number. -/
opaque firstTripInput (n : Nat) : Nat

/-- FREE VALUE (log entry 10). Whether the test of a stalled head at a control period expiry comes before the work
of that expiry (R109 and R46 give no order between them). -/
opaque retestBeforeWork (n : Nat) : Bool

/-- FREE VALUE (log entry 11). The position of a shadow whose advance by its velocity leaves the positions of R1
(R12 gives the advance, R1 the range; no rule joins them); used modulo the number of positions. -/
opaque shadowOffTrack (setpoint : Nat) (velocity : Int) : Nat

/-- FREE VALUE (log entry 12). The byte that stands for item `n` of a response when the item is absent and R178 gives
it no absent encoding. -/
opaque absentByte (n : Nat) : Byte

/-- FREE VALUE (log entry 57). Two rules differ on a mover that a trip of the own drive faults, and nothing in the datasheet
settles between them: true where it keeps every zone it holds (R158: "Holdings stay. Every own zone keeps its holder", R34),
false where it releases those its body does not touch as at any other fault (R61 with R57, R80). -/
opaque tripKeepsHoldings : Bool

end Sys2Proof.Config
end

