-- ==== Sys2Proof/Syntax.lean ====
section
/-! DEFINITION. The commands of the part: one constructor per row of spec/opcode_table.json, with what comes in
from outside as its operands. Port operands are raw numbers as a message can hold them (R182); their ranges are
tested by the command (R163), and `Instr.wellFormed` says that each fits its bytes. -/

namespace Sys2Proof

/-- One of the two boundaries of the own segment (00_scope.md, "side"). -/
inductive Side
  | lower
  | upper
deriving DecidableEq, Repr

/-- A trip input, and the cause it gives: a coil's local index, or SUPPLY (R157). -/
inductive TripCause
  | coil (k : Nat)
  | supply
deriving DecidableEq, Repr

/-- The four switches of a coil bridge: high and low of legs A and B (09_coil_drive.md). -/
inductive SwitchName
  | ah
  | al
  | bh
  | bl
deriving DecidableEq, Repr

/-- The move record of a MOVE message as its 11 bytes hold it (R178). -/
structure MoveParams where
  tag : Nat
  target : Nat
  speed : Nat
  accel : Nat
  dwell : Nat
  flags : Nat
deriving DecidableEq, Repr

/-- How an attempt ends on the line (R94, R95): the acknowledge slot read dominant, read recessive, or the attempt
disturbed before its slot. -/
inductive SlotReading
  | dominant
  | recessive
  | disturbed
deriving DecidableEq, Repr

/-- What one assertion of the frame strobe brings: the bits sampled at SNDT, first bit first (R135), and whether a pin reset
or RESTART came between the strobe's assertion and its release (R136; log entry 48). -/
structure StrobedBits where
  sampled : List Bool
  spansReset : Bool
deriving DecidableEq, Repr

/-- The operations and events of the part, one constructor per row of the table. -/
inductive Instr
  | pinReset
  | nullMessage
  | malformedMessage (secondByte : Option Nat)
  | status (seq : Nat)
  | readReports (seq count : Nat)
  | ackFlags (seq classes : Nat)
  | setMask (seq masks : Nat)
  | setMitigation (seq threshold age : Nat)
  | move (seq mover : Nat) (params : MoveParams)
  | abort (seq mover : Nat)
  | clear (seq mover : Nat)
  | halt (seq : Nat)
  | adopt (seq mover : Nat)
  | forget (seq mover : Nat)
  | block (seq zone : Nat)
  | unblock (seq zone : Nat)
  | driveOn (seq : Nat)
  | driveOff (seq : Nat)
  | readMover (seq mover : Nat)
  | readZone (seq zone : Nat)
  | readSides (seq : Nat)
  | watchSet (seq mode : Nat) (movers : List Nat)
  | maintenance (seq : Nat)
  | storeRead (seq page : Nat)
  | storeErase (seq page : Nat)
  | storeStage (seq start : Nat) (data : List Byte)
  | storeCommit (seq page : Nat)
  | storeClearBuffer (seq : Nat)
  | restart (seq : Nat)
  | storeOperationComplete
  | controlPeriodExpiry
  | followCountExpiry (mover : Nat)
  | dwellEnd (mover : Nat)
  | zoneTimeout (mover : Nat)
  | claimAnswerTimeout (mover : Nat)
  | handoverAnswerTimeout (mover : Nat)
  | trackLoss (mover : Nat)
  | joinCountExpiry
  | probeCountExpiry (side : Side)
  | orderTimeout (tag : Nat)
  | ageTimerExpiry
  | scan (bits : StrobedBits)
  | lossCountExpiry (mover : Nat)
  | tripInputActive (input : TripCause)
  | pwmTurn
  | deadtimeElapsed (coil : Nat) (switch : SwitchName)
  /-- The bits read on the line from the start bit on, true for recessive (R91). -/
  | frameReceived (bits : List Bool)
  | presentFrame
  | noticeFrame
  | claimFrame
  | cancelFrame
  | releaseFrame
  | grantFrame
  | queuedFrame
  | deniedFrame
  | deferredFrame
  | handoverFrame
  | takenFrame
  | overheardTaken
  | refusedFrame
  | trackFrame
  | orderFrame
  | orderReplyFrame
  /-- The contention bytes of the other stations that start at the same moment (R93). -/
  | transmitStart (rivals : List Byte)
  | attemptEnd (slot : SlotReading)
  | tripInputInactive (input : TripCause)
  | pwmCompareReached (coil : Nat)
  | loadingEnd
deriving DecidableEq, Repr

end Sys2Proof
end

