-- ==== Sys2Proof/Decode.lean ====
section
/-! DEFINITION. The table of this block gives no row any bits, so no word spells a command (log entry 1). The bytes
that the ports bring are read in Machine/Operands.lean and Machine/Formats.lean. -/

namespace Sys2Proof

/-- The command that a word of the table spells: none, since no row of spec/opcode_table.json gives bits. -/
def decodeTableWord (_nbits _w : Nat) : Option Instr := none

end Sys2Proof
end

