-- ==== Sys2Proof/Machine/State.lean ====
section
/-! DEFINITION. Everything the datasheet gives the part, as plain data, and the part right after reset. -/

namespace Sys2Proof.Machine

/-! ## Marks of due sends -/

/-- The mark of one due send: its place in due order (R102), tries made 0 to 3 (R96), pass count 0 to 8 (R103). -/
structure Due where
  place : Nat
  tries : Nat
  pass : Nat
deriving DecidableEq, Repr

/-! ## Configuration and station (R111, R173) -/

/-- Station states (R111). -/
inductive Mode
  | loading
  | unconfigured
  | joining
  | online
  | maintenance
deriving DecidableEq, Repr

/-- On or off for the four switches of a bridge: an idle-level set (R155), a request, or the outputs. -/
structure Switches where
  ah : Bool
  al : Bool
  bh : Bool
  bl : Bool
deriving DecidableEq, Repr

/-- Every switch off (R147). -/
def Switches.off : Switches := ⟨false, false, false, false⟩

/-- The configuration record in force (R111, R173). A neighbour field of NONE is `none`. -/
structure Record where
  address : Address
  lower : Option Address
  upper : Option Address
  origin : Position
  coils : Nat
  periodCode : Nat
  rateCode : Nat
  followLimit : Nat
  zoneWaitLimit : Nat
  gain : Nat
  stopAccel : Nat
  pwmTop : Nat
  deadtime : Nat
  idle : Switches
deriving DecidableEq, Repr

/-- What the accessors answer while no record is in force: no coil, no neighbour. -/
def Record.blank : Record :=
  { address := 63, lower := none, upper := none, origin := 0, coils := 0, periodCode := 0, rateCode := 0,
    followLimit := 0, zoneWaitLimit := 0, gain := 0, stopAccel := 0, pwmTop := 0, deadtime := 0,
    idle := Switches.off }

/-- The drive state, with the trip cause while TRIPPED (R147, R157). -/
inductive DriveState
  | off
  | on
  | tripped (cause : TripCause)
deriving DecidableEq, Repr

/-! ## Moves, motion and claims -/

/-- A move record (R44). -/
structure MoveRecord where
  tag : Nat
  target : Position
  speed : Nat
  accel : Nat
  dwell : Option Nat
  report : Bool
deriving DecidableEq, Repr

/-- Fault causes (R7). -/
inductive FaultCause
  | follow
  | lost
  | driveTrip
  | neighbourTrip
  | handoverRefused
  | handoverLost
deriving DecidableEq, Repr

/-- Motion states; FAULTED carries its cause, so that a cause is present in FAULTED only (R7). -/
inductive Motion
  | idle
  | moving
  | dwell
  | zoneWait
  | stopping
  | faulted (cause : FaultCause)
deriving DecidableEq, Repr

/-- The motion state is FAULTED, whatever the cause. -/
def Motion.isFaulted : Motion → Bool
  | .faulted _ => true
  | .idle | .moving | .dwell | .zoneWait | .stopping => false

/-- Reasons of a denial (R54, R178). -/
inductive DenialReason
  | outOfSegment
  | state
  | drive
  | blocked
  | closed
  | noAnswer
deriving DecidableEq, Repr

/-- Phases of an outstanding claim (R10). -/
inductive ClaimPhase
  | toSend
  | sent
  | queued
  | deferred
deriving DecidableEq, Repr

/-- An outstanding claim (R10), with the place of the last QUEUED answer, 0 when none came. -/
structure Claim where
  zone : ZoneNo
  phase : ClaimPhase
  sends : Nat
  periods : Nat
  place : Nat
deriving DecidableEq, Repr

/-- The sending phase of a handover record; READY holds the mark of the due HANDOVER (R68). -/
inductive HandoverPhase
  | ready (due : Due)
  | awaiting
deriving DecidableEq, Repr

/-- The handover record of a HANDING entry (R68). -/
structure Handover where
  target : Address
  travelled : Option Claim
  phase : HandoverPhase
  attempts : Nat
  waiting : Nat
deriving DecidableEq, Repr

/-- The set of RELEASE due toward one side, ascending and not empty, with the mark of its one send (R11, R99). -/
structure ReleaseDue where
  zones : List ZoneNo
  due : Due
deriving DecidableEq, Repr

/-- The shadow of a VISITOR (R12). -/
structure Shadow where
  setpoint : Position
  velocity : Int
  demand : Int
  age : Nat
  valid : Bool
deriving DecidableEq, Repr

/-! ## The Mover Table -/

/-- Entry states (R6). -/
inductive EntryState
  | stray
  | visitor
  | resident
  | handing
deriving DecidableEq, Repr

/-- One entry of the Mover Table, with the fields of section 1.2. A field an entry state does not hold is absent,
empty or 0 in it (R13). The remote holdings are one list toward each side, as R10 has a list toward a side: each of zones of
that neighbour's segment alone (log entry 51). -/
structure Entry where
  id : MoverId
  state : EntryState
  owner : Option Address
  motion : Motion
  setpoint : Position
  velocity : Int
  active : Option MoveRecord
  queue : List MoveRecord
  dwellRemaining : Nat
  zoneWaitCount : Nat
  denied : Option (ZoneNo × DenialReason)
  actual : Option Position
  lossCount : Nat
  followCount : Nat
  claim : Option Claim
  remoteLower : List ZoneNo
  remoteUpper : List ZoneNo
  claimDue : Option Due
  cancelDue : Option (ZoneNo × Due)
  releaseLower : Option ReleaseDue
  releaseUpper : Option ReleaseDue
  trackDue : Option (Side × Due)
  takenDue : Option (Address × Due)
  previousOwner : Option Address
  lostTarget : Option Address
  handover : Option Handover
  flushedAtStop : Nat
  shadow : Option Shadow
  demand : Int
deriving DecidableEq, Repr

/-- An entry with every field absent, empty or 0 (R13, "Fields not named"). -/
def Entry.blank (id : MoverId) (state : EntryState) : Entry :=
  { id, state, owner := none, motion := .idle, setpoint := 0, velocity := 0, active := none, queue := [],
    dwellRemaining := 0, zoneWaitCount := 0, denied := none, actual := none, lossCount := 0, followCount := 0,
    claim := none, remoteLower := [], remoteUpper := [], claimDue := none, cancelDue := none, releaseLower := none,
    releaseUpper := none, trackDue := none, takenDue := none, previousOwner := none, lostTarget := none, handover := none,
    flushedAtStop := 0, shadow := none, demand := 0 }

/-! ## The zone table -/

/-- Zone states; HELD carries the holder mover and the holder station (section 2.1, R19). -/
inductive ZoneState
  | free
  | held (mover : MoverId) (station : Address)
  | blocked
deriving DecidableEq, Repr

/-- A claim in a wait list (R21). -/
structure WaitClaim where
  mover : MoverId
  station : Address
  entryFlag : Bool
  queuedOwed : Option Due
deriving DecidableEq, Repr

/-- One zone entry (section 2.1). -/
structure Zone where
  state : ZoneState
  grantOwed : Option Due
  waiting : List WaitClaim
deriving DecidableEq, Repr

/-- A FREE zone with an empty list (R20). -/
def Zone.fresh : Zone := { state := .free, grantOwed := none, waiting := [] }

/-! ## Side records -/

/-- Closed reasons (R114). -/
inductive ClosedReason
  | lost
  | mismatch
deriving DecidableEq, Repr

/-- Side states; CLOSED carries its reason (R114). -/
inductive SideState
  | edge
  | unheard
  | opened
  | closed (reason : ClosedReason)
deriving DecidableEq, Repr

/-- A side record (R114). `presentDue` holds the answer-wanted flag with the mark; `span` is origin and coil count. -/
structure SideRecord where
  neighbour : Option Address
  state : SideState
  openedSinceLoading : Bool
  span : Option (Position × Nat)
  drive : Option DriveState
  trippedMark : Bool
  probeCount : Nat
  presentDue : Option (Bool × Due)
deriving DecidableEq, Repr

/-- The side record that LOADING makes from a neighbour field (R114). -/
def SideRecord.ofNeighbour (n : Option Address) : SideRecord :=
  { neighbour := n, state := if n.isSome then .unheard else .edge, openedSinceLoading := false, span := none,
    drive := none, trippedMark := false, probeCount := 0, presentDue := none }

/-! ## Orders -/

/-- What an order asks; a MOVE carries its record (R125). -/
inductive OrderKind
  | move (record : MoveRecord)
  | abort
  | clear
deriving DecidableEq, Repr

/-- Results of an order (R128, R131, R178). -/
inductive OrderResult
  | accepted
  | queueFull
  | faulted
  | stopping
  | badState
  | drift
  | retry
  | inTransit
  | notFound
deriving DecidableEq, Repr

/-- An entry of the pending order table (R125). -/
structure PendingOrder where
  tag : Nat
  mover : MoverId
  kind : OrderKind
  due : Option Due
  waiting : Nat
  retrySeen : Option Address
deriving DecidableEq, Repr

/-- Watch modes (R133). -/
inductive WatchMode
  | off
  | list
  | all
deriving DecidableEq, Repr

/-! ## Frames -/

/-- Reasons a HANDOVER is refused with (R77). -/
inductive HandoverRefusal
  | unknown
  | conflict
  | state
deriving DecidableEq, Repr

/-- The content of a PRESENT (R116, R179). -/
structure Present where
  origin : Position
  coils : Nat
  lower : Option Address
  upper : Option Address
  fresh : Bool
  answerWanted : Bool
  drive : DriveState
deriving DecidableEq, Repr

/-- The claim a HANDOVER carries (R69, R180). -/
structure CarriedClaim where
  zone : ZoneNo
  phase : ClaimPhase
  sends : Nat
  periods : Nat
deriving DecidableEq, Repr

/-- The content of a HANDOVER (R69, R180). A run is its first zone and count; count 0 is an empty run. -/
structure HandoverContent where
  mover : MoverId
  motion : Motion
  setpoint : Position
  velocity : Int
  dwellRemaining : Nat
  zoneWaitCount : Nat
  claim : Option CarriedClaim
  receiverRun : ZoneNo × Nat
  senderRun : ZoneNo × Nat
  denied : Option (ZoneNo × DenialReason)
  active : Option MoveRecord
  queue : List MoveRecord
  flushedAtStop : Nat
deriving DecidableEq, Repr

/-- A frame's kind with its content (R97, R179). -/
inductive Frame
  | present (p : Present)
  | notice (drive : DriveState)
  | claim (mover : MoverId) (zone : ZoneNo) (entryFlag : Bool)
  | cancel (mover : MoverId) (zone : ZoneNo)
  | grant (mover : MoverId) (zone : ZoneNo)
  | queued (mover : MoverId) (zone : ZoneNo) (place : Nat)
  | denied (mover : MoverId) (zone : ZoneNo) (reason : DenialReason)
  | deferred (mover : MoverId) (zone : ZoneNo)
  | release (mover : MoverId) (first : ZoneNo) (count : Nat)
  | handover (content : HandoverContent)
  | taken (mover : MoverId)
  | refused (mover : MoverId) (reason : HandoverRefusal)
  | track (mover : MoverId) (setpoint : Position) (velocity demand : Int)
  | order (tag : Nat) (mover : MoverId) (kind : OrderKind)
  | orderReply (tag : Nat) (mover : MoverId) (result : OrderResult)
deriving DecidableEq, Repr

/-- A loose send in the Send List (R101). -/
structure LooseSend where
  destination : Address
  content : Frame
  due : Due
deriving DecidableEq, Repr

/-- A frame in the receive queue: its header and the payload bytes, judged when it is taken (R106, R107). -/
structure RxFrame where
  source : Address
  destination : Address
  kind : Nat
  payload : List Byte
deriving DecidableEq, Repr

/-- The record and mark that owe a send (R99). -/
inductive SendRef
  | claim (mover : MoverId)
  | cancel (mover : MoverId)
  | release (mover : MoverId) (side : Side)
  | track (mover : MoverId)
  | handover (mover : MoverId)
  | taken (mover : MoverId)
  | grant (zone : Nat)
  | queued (zone : Nat) (mover : MoverId)
  | present (side : Side)
  | notice
  | joinPresent
  | order (tag : Nat)
  | loose
deriving DecidableEq, Repr

/-- The attempt under way (R94, R104): the send it serves, the mark's place, the tries the send had made, the class,
destination and content fixed at its start, and whether its record has raised it again since. -/
structure Attempt where
  ref : SendRef
  place : Nat
  tries : Nat
  priority : Nat
  destination : Address
  content : Frame
  raisedAgain : Bool
deriving DecidableEq, Repr

/-- The Link Controller's counters (R110). -/
structure LinkCounters where
  receiveErrors : Nat
  turnedAway : Nat
  missedFrames : Nat
  foreignFrames : Nat
  deliveryFailures : Nat
  droppedReplies : Nat
  disturbedAttempts : Nat
deriving DecidableEq, Repr

/-- The Sighting Unit's counters (R143). -/
structure SightingCounters where
  scanErrors : Nat
  missedScans : Nat
  droppedSightings : Nat
  untrackedSightings : Nat
deriving DecidableEq, Repr

/-! ## Coil Driver -/

/-- Polarity of a coil's drive (R153). -/
inductive Polarity
  | plus
  | minus
  | zero
deriving DecidableEq, Repr

/-- A preloaded or applied drive (R151). -/
inductive CoilDrive
  | unassigned
  | drive (polarity : Polarity) (compare : Nat)
deriving DecidableEq, Repr

/-- For each switch, the coil clocks since it went off, staying at 255; 0 while it is on (R156). -/
structure OffClocks where
  ah : Nat
  al : Nat
  bh : Nat
  bl : Nat
deriving DecidableEq, Repr

/-- The drive record of a coil (R151), its four switch outputs (R155) and the count of R156. -/
structure Coil where
  assigned : Option MoverId
  preloaded : CoilDrive
  applied : CoilDrive
  outputs : Switches
  offClocks : OffClocks
deriving DecidableEq, Repr

/-- A coil as the reset leaves it (R147). -/
def Coil.atReset : Coil :=
  { assigned := none, preloaded := .unassigned, applied := .unassigned, outputs := Switches.off,
    offClocks := ⟨0, 0, 0, 0⟩ }

/-- The PWM counter (R154). -/
structure Pwm where
  running : Bool
  count : Nat
  up : Bool
deriving DecidableEq, Repr

/-! ## Reports -/

/-- Report classes, in the bit order of R182. -/
inductive ReportClass
  | motion
  | fault
  | link
  | order
  | watch
  | station
deriving DecidableEq, Repr

/-- Store operations (R174). -/
inductive StoreOp
  | erase
  | commit
deriving DecidableEq, Repr

/-- A report's kind with its items (R167). -/
inductive ReportBody
  | moveDone (mover : MoverId) (tag : Nat)
  | moveAborted (mover : MoverId) (tag : Option Nat) (flushed : Nat)
  | zoneTimeout (mover : MoverId) (zone : Option ZoneNo) (tag : Nat)
  | zoneDenied (mover : MoverId) (zone : ZoneNo) (tag : Nat) (reason : DenialReason)
  | moverFault (mover : MoverId) (cause : FaultCause) (dropped : Nat) (refusal : Option HandoverRefusal)
  | driveTrip (cause : TripCause)
  | trackLoss (mover : MoverId)
  | sideOpen (neighbour : Address)
  | sideClosed (neighbour : Address) (reason : ClosedReason)
  | neighbourRestart (neighbour : Address)
  | neighbourTrip (neighbour : Address) (cause : TripCause)
  | neighbourResume (neighbour : Address)
  | orderResult (mover : MoverId) (station : Option Address) (tag : Nat) (result : OrderResult)
  | watchOwner (mover : MoverId) (newOwner previousOwner : Address)
  | joined
  | straySeen (mover : MoverId) (zone : ZoneNo)
  | storeDone (op : StoreOp) (page : Nat)
  | storeInvalid (page : Nat)
deriving DecidableEq, Repr

/-- A record of the Report Queue (R166). -/
structure ReportRecord where
  seq : Nat
  time : Nat
  body : ReportBody
deriving DecidableEq, Repr

/-- What the Command Port keeps of reports: queue, flags, masks, mitigation, age timer and line (R166 to R172). Bit k
of `flags` and `masks` stands for class k of R182. -/
structure Reports where
  queue : List ReportRecord
  nextSeq : Nat
  overflow : Nat
  flags : BitVec 6
  masks : BitVec 6
  threshold : Nat
  age : Nat
  timerCount : Nat
  timerRunning : Bool
  lineAsserted : Bool
deriving DecidableEq, Repr

/-- The report state after a pin reset (R166, R168, R170, R171, R172). -/
def Reports.atReset : Reports :=
  { queue := [], nextSeq := 0, overflow := 0, flags := 0, masks := 0, threshold := 1, age := 0, timerCount := 0,
    timerRunning := false, lineAsserted := false }

/-! ## The station: every block but the report state, the port and the store -/

/-- The station's blocks that RESTART starts afresh (R113), with the reports made in the event under way. -/
structure Station where
  mode : Mode
  record : Option Record
  periodCount : Nat
  joinCount : Nat
  entries : List Entry
  zones : List Zone
  lowerSide : SideRecord
  upperSide : SideRecord
  noticeDue : Option Due
  joinPresentDue : Option Due
  nextPlace : Nat
  attempt : Option Attempt
  sendList : List LooseSend
  rxQueue : List RxFrame
  rxStalled : Bool
  linkCounters : LinkCounters
  ackDriven : Bool
  orders : List PendingOrder
  nextTag : Nat
  watchMode : WatchMode
  watchList : List MoverId
  expectedScan : Option Nat
  sightingCounters : SightingCounters
  drive : DriveState
  latch : Option TripCause
  overCurrent : BitVec 16
  supplyLow : Bool
  pwm : Pwm
  coils : List Coil
  outbox : List ReportBody
deriving DecidableEq, Repr

/-- The station's blocks at their reset values, LOADING under way (R111); the trip inputs are pins and are given. -/
def Station.atReset (overCurrent : BitVec 16) (supplyLow : Bool) : Station :=
  { mode := .loading, record := none, periodCount := 0, joinCount := 0, entries := [], zones := [],
    lowerSide := SideRecord.ofNeighbour none, upperSide := SideRecord.ofNeighbour none,
    noticeDue := none, joinPresentDue := none, nextPlace := 0, attempt := none, sendList := [], rxQueue := [],
    rxStalled := false, linkCounters := ⟨0, 0, 0, 0, 0, 0, 0⟩, ackDriven := false, orders := [], nextTag := 0,
    watchMode := .off, watchList := [], expectedScan := none, sightingCounters := ⟨0, 0, 0, 0⟩,
    drive := .off, latch := none, overCurrent := overCurrent, supplyLow := supplyLow,
    pwm := { running := false, count := 0, up := true },
    coils := List.replicate 16 Coil.atReset, outbox := [] }

/-! ## Configuration Store -/

/-- 64 bytes at offsets 0 to 63, as the offsets that do not read FFh (Machine/Memory.lean gives the form). -/
abbrev Memory := List Host.Cell

/-- The Configuration Store (R173 to R176). -/
structure Store where
  page0 : Memory
  page1 : Memory
  mark0 : Bool
  mark1 : Bool
  buffer : Memory
  offset : Nat
  busy : Option (StoreOp × Nat)
deriving DecidableEq, Repr

/-- The store before anything was written: erased pages, marks clear (log entry 6); buffer and offset as R176. -/
def Store.erased : Store :=
  { page0 := [], page1 := [], mark0 := false, mark1 := false, buffer := [], offset := 0, busy := none }

/-! ## Command Port -/

/-- Result codes (R163). -/
inductive ResultCode
  | ok
  | accepted
  | busy
  | refused
  | badParam
  | notFound
  | state
deriving DecidableEq, Repr

/-- Reasons of a REFUSED answer (R163, R182). -/
inductive RefuseReason
  | inTransit
  | stray
  | faulted
  | stopping
  | queueFull
  | badState
  | drift
  | notStray
  | zoneBusy
  | outOfSegment
  | moversActive
  | driveOn
  | tripActive
deriving DecidableEq, Repr

/-- The copy STATUS returns (R165): the items of its table, in its groups. -/
structure StatusCopy where
  mode : Mode
  record : Option Record
  periodCount : Nat
  joinCount : Option Nat
  drive : DriveState
  latch : Option TripCause
  overCurrent : BitVec 16
  supplyLow : Bool
  strays : Nat
  visitors : Nat
  residents : Nat
  handings : Nat
  zonesFree : Nat
  zonesHeld : Nat
  zonesBlocked : Nat
  waitingClaims : Nat
  lowerState : SideState
  lowerTripped : Bool
  upperState : SideState
  upperTripped : Bool
  rxFrames : Nat
  rxStalled : Bool
  sendsInUse : Nat
  linkCounters : LinkCounters
  ordersInUse : Nat
  nextTag : Nat
  watchMode : WatchMode
  watchCount : Nat
  expectedScan : Option Nat
  sightingCounters : SightingCounters
  busy : Option (StoreOp × Nat)
  mark0 : Bool
  mark1 : Bool
  reports : Nat
  nextSeq : Nat
  overflow : Nat
  flags : BitVec 6
  masks : BitVec 6
  threshold : Nat
  age : Nat
  timerCount : Nat
  timerRunning : Bool
  lineAsserted : Bool
deriving DecidableEq, Repr

/-- The data of a response, by the rule that owns the command. -/
inductive ReplyData
  | empty
  | reason (r : RefuseReason)
  | tripActive (cause : TripCause)
  | number (n : Nat)
  | numbers (a b : Nat)
  | flags (f : BitVec 6)
  | status (copy : StatusCopy)
  | moverList (movers : List (MoverId × EntryState))
  | mover (entry : Entry) (ownFirst : ZoneNo) (ownCount : Nat)
  | zone (index : Nat) (zone : Zone)
  | sides (mode : Mode) (joinCount : Nat) (lower upper : SideRecord)
  | reports (records : List ReportRecord) (left overflow : Nat)
  | page (bytes : List Byte) (mark : Bool)
deriving DecidableEq, Repr

/-- One response: the sequence number it echoes, its result code and its data (R162, R182). -/
structure Response where
  seq : Nat
  result : ResultCode
  data : ReplyData
deriving DecidableEq, Repr

/-- The Command Port's response buffer (`none` is the empty response of R162), and the bytes that the last transaction
fixed to be shifted out, before the FFh bytes that follow (R160; `Port.shiftedByte` gives every byte). -/
structure Port where
  response : Option Response
  shifted : List Byte
deriving DecidableEq, Repr

/-! ## State -/

/-- The part, with the queue of commands that wait, first in first out. `free` numbers the next free value of Config
and is the model's own (log entry 8). -/
structure State where
  station : Station
  reports : Reports
  port : Port
  store : Store
  free : Nat
  pending : List Instr
deriving DecidableEq, Repr

/-- The datasheet names nothing that stops the part, so no command faults: there is no constructor. -/
inductive Fault
deriving DecidableEq, Repr

/-- Why a command has no meaning in the model. -/
inductive Refusal
  /-- Raised by `exec` for a command whose meaning is not written yet; safe. No arm uses it. -/
  | notModelled (mnemonic : String)
deriving DecidableEq, Repr

/-- Right after a pin reset (R111): LOADING has begun, nothing waits. -/
def State.reset : State :=
  { station := Station.atReset 0 false, reports := Reports.atReset, port := { response := none, shifted := [] },
    store := Store.erased, free := 0, pending := [] }

end Sys2Proof.Machine
end

