-- ==== Sys2Proof/Machine/Flags.lean ====
section
/-! DEFINITION. Reports, class flags and masks, the age timer and the REPORT line (R166 to R172). -/

namespace Sys2Proof.Machine

open Sys2Proof.Config

/-- The class of a report's kind (R167). -/
def ReportBody.reportClass : ReportBody → ReportClass
  | .moveDone .. | .moveAborted .. | .zoneTimeout .. | .zoneDenied .. => .motion
  | .moverFault .. | .driveTrip _ | .trackLoss _ => .fault
  | .sideOpen _ | .sideClosed .. | .neighbourRestart _ | .neighbourTrip .. | .neighbourResume _ => .link
  | .orderResult .. => .order
  | .watchOwner .. => .watch
  | .joined | .straySeen .. | .storeDone .. | .storeInvalid _ => .station

/-- The number of a class, 0 to 5, in the bit order of R182. -/
def ReportClass.number : ReportClass → Nat
  | .motion => 0
  | .fault => 1
  | .link => 2
  | .order => 3
  | .watch => 4
  | .station => 5

/-- The bit of a class in a class set (R182). -/
def ReportClass.bit (c : ReportClass) : BitVec 6 := 1#6 <<< c.number

/-- The flags that are set and not masked (R170). -/
def Reports.unmasked (r : Reports) : BitVec 6 := r.flags &&& ~~~r.masks

/-- Some unmasked flag is set (R172). -/
def Reports.anyUnmasked (r : Reports) : Bool := r.unmasked != 0

/-- The age timer starts with count 0 when the line is not asserted, the timer is stopped and the age is 1 or more
(R171). Called at an event at which an unmasked flag becomes set. -/
def Reports.startTimer (r : Reports) : Reports :=
  if !r.lineAsserted && !r.timerRunning && 1 ≤ r.age then { r with timerRunning := true, timerCount := 0 } else r

/-- The line is decided again (R172); `expired` says that this is the event at which the age timer expired. An asserted
line stays asserted until no unmasked flag is set; the timer stops when the line changes, and at any event that leaves
no unmasked flag set (R171). -/
def Reports.decideLine (r : Reports) (expired : Bool) : Reports :=
  if !r.anyUnmasked then { r with lineAsserted := false, timerRunning := false }
  else if r.lineAsserted then r
  else if r.threshold = 0 || r.threshold ≤ r.queue.length || expired then
    { r with lineAsserted := true, timerRunning := false }
  else r

/-- A report at period count `time` (R166, R168, R170): it joins the tail with the next sequence number and sets its
class flag, or is dropped for a full queue and counted. -/
def Reports.add (r : Reports) (time : Nat) (b : ReportBody) : Reports :=
  if r.queue.length < reportQueueSize then
    let bit := b.reportClass.bit
    let becomesSet := r.flags &&& bit = 0 && r.masks &&& bit = 0
    let joined := { r with queue := r.queue ++ [ReportRecord.mk r.nextSeq time b],
                           nextSeq := (r.nextSeq + 1) % 65536, flags := r.flags ||| bit }
    (if becomesSet then joined.startTimer else joined).decideLine false
  else { r with overflow := min (r.overflow + 1) 255 }

/-- The reports of one event, in the order in which its rules make them (R166). -/
def Reports.addAll (r : Reports) (time : Nat) (bs : List ReportBody) : Reports :=
  bs.foldl (fun r b => r.add time b) r

/-- READ REPORTS of `count` records: the queue without them (R169), the line decided again (R172). -/
def Reports.remove (r : Reports) (count : Nat) : Reports :=
  ({ r with queue := r.queue.drop count } : Reports).decideLine false

/-- ACK FLAGS (R170): the flags of the classes named are cleared, and the overflow counter when its mark is set. -/
def Reports.ack (r : Reports) (classes : BitVec 6) (clearOverflow : Bool) : Reports :=
  ({ r with flags := r.flags &&& ~~~classes, overflow := if clearOverflow then 0 else r.overflow } :
    Reports).decideLine false

/-- SET MASK (R170): all six masks are replaced; unmasking a class whose flag is set counts as an unmasked flag becoming
set. -/
def Reports.setMasks (r : Reports) (masks : BitVec 6) : Reports :=
  let newlyUnmasked := r.flags &&& r.masks &&& ~~~masks
  let changed := { r with masks := masks }
  (if newlyUnmasked ≠ 0 then changed.startTimer else changed).decideLine false

/-- SET MITIGATION (R171): both values are replaced; a running timer keeps its count, stops with a new age of 0, and
expires at this event with a new age at or below its count. -/
def Reports.setMitigation (r : Reports) (threshold age : Nat) : Reports :=
  let changed := { r with threshold := threshold, age := age, timerRunning := r.timerRunning && age != 0 }
  changed.decideLine (changed.timerRunning && age ≤ r.timerCount)

/-- The age timer at a control period expiry (R171): a running timer counts, and expires when it reaches the age. -/
def Reports.tick (r : Reports) : Reports :=
  if r.timerRunning then
    let counted := { r with timerCount := r.timerCount + 1 }
    if r.age ≤ counted.timerCount then counted.decideLine true else counted
  else r

/-- The next expiry's count makes the age timer reach the age (R171). -/
def Reports.timerEnds (r : Reports) : Bool := r.timerRunning && r.age ≤ r.timerCount + 1

end Sys2Proof.Machine
end

