-- ==== Sys2Proof/Machine/Geometry.lean ====
section
/-! DEFINITION. Positions, segments, zones and bodies (R1 to R4), and which neighbour lies where (R2, R114). -/

namespace Sys2Proof.Machine

open Sys2Proof.Config

/-- Body behind the position: a body runs from p − 2000 (R4). -/
def bodyBelow : Nat := 2000

/-- Body above the position: a body runs to p + 1999 (R4). -/
def bodyAbove : Nat := 1999

/-- The numbers from `a` to `b`, ascending; none when `b` lies below `a`. -/
def rangeIncl (a b : Nat) : List Nat := (List.range (b + 1 - a)).map (· + a)

/-- The zone containing a position, if it lies in one (R3). -/
def zoneOf (p : Position) : Option ZoneNo := if p ≤ maxZonedPosition then some (p / zoneLength) else none

/-- The zones that any position from `low` to `high` lies in, ascending (R3, R4). -/
def zonesBetween (low high : Position) : List ZoneNo :=
  if low ≤ maxZonedPosition then rangeIncl (low / zoneLength) (min high maxZonedPosition / zoneLength) else []

/-- The zones that the body at `p` touches, ascending (R4): what lies below 0 is cut off, and what lies above
16,775,999 touches no zone. -/
def bodyZones (p : Position) : List ZoneNo := zonesBetween (p - bodyBelow) (p + bodyAbove)

/-- The front of a body at `p` along `d`, which can lie below 0 (R4). -/
def front (p : Position) (d : Int) : Int := if d = 1 then (p : Int) + 1999 else (p : Int) - 2000

/-- First position of a zone (R3). -/
def zoneStart (g : ZoneNo) : Position := g * zoneLength

/-- Last position of a zone (R3). -/
def zoneEnd (g : ZoneNo) : Position := g * zoneLength + (zoneLength - 1)

/-- Centre of a zone: its first position plus 1500 (R153). -/
def zoneCentre (g : ZoneNo) : Position := g * zoneLength + 1500

/-- The zone lies behind the body at `p` with respect to `d`: every position beyond the rear against `d` (R4). -/
def behindBody (p : Position) (d : Int) (g : ZoneNo) : Bool :=
  if d = 1 then (zoneEnd g : Int) < (p : Int) - 2000 else p + bodyAbove < zoneStart g

/-- The configuration record in force, blank while there is none. -/
def Station.conf (st : Station) : Record := st.record.getD Record.blank

/-- The station's own address. -/
def Station.own (st : Station) : Address := st.conf.address

/-- Coil count C (R2). -/
def Station.coilCount (st : Station) : Nat := st.conf.coils

/-- The lowest own zone, origin/3000 (R3). -/
def Station.firstZone (st : Station) : ZoneNo := st.conf.origin / zoneLength

/-- The segment end, the first position of the upper neighbour's span (R2). -/
def Station.segmentEnd (st : Station) : Position := st.conf.origin + zoneLength * st.conf.coils

/-- The position lies in the own span (R2). -/
def Station.inOwnSpan (st : Station) (p : Position) : Bool := st.conf.origin ≤ p && p < st.segmentEnd

/-- Local index of a global zone in this segment (R3). -/
def Station.localIndex (st : Station) (g : ZoneNo) : Option Nat :=
  if st.firstZone ≤ g ∧ g < st.firstZone + st.coilCount then some (g - st.firstZone) else none

/-- Global number of a local zone (R3). -/
def Station.globalZone (st : Station) (k : Nat) : ZoneNo := st.firstZone + k

/-- The side of the own segment that a zone outside it lies on (R2). -/
def Station.sideOfZone (st : Station) (g : ZoneNo) : Side := if g < st.firstZone then .lower else .upper

/-- The body at `p` touches the span on that side (R4). -/
def Station.bodyTouches (st : Station) (p : Position) : Side → Bool
  | .lower => p < st.conf.origin + bodyBelow
  | .upper => st.segmentEnd ≤ p + bodyAbove

/-- The other side. -/
def otherSide : Side → Side
  | .lower => .upper
  | .upper => .lower

/-- The side record of a side (R114). -/
def Station.side (st : Station) : Side → SideRecord
  | .lower => st.lowerSide
  | .upper => st.upperSide

/-- The station with the side record of a side replaced. -/
def Station.setSide (st : Station) (d : Side) (r : SideRecord) : Station :=
  match d with
  | .lower => { st with lowerSide := r }
  | .upper => { st with upperSide := r }

/-- The side whose configured neighbour has that address. -/
def Station.sideOfAddress (st : Station) (n : Address) : Option Side :=
  if st.lowerSide.neighbour = some n then some .lower
  else if st.upperSide.neighbour = some n then some .upper
  else none

/-- The neighbour's address on a side, 63 where the side is EDGE (R178). -/
def Station.neighbourAt (st : Station) (d : Side) : Address := (st.side d).neighbour.getD 63

/-- The side is OPEN (R114). -/
def Station.sideOpen (st : Station) (d : Side) : Bool := (st.side d).state = .opened

/-- The address is a configured neighbour on an OPEN side (R108). -/
def Station.openNeighbour (st : Station) (n : Address) : Bool :=
  match st.sideOfAddress n with
  | some d => st.sideOpen d
  | none => false

/-- The list of remote holdings toward a side (R10). -/
def Entry.remoteToward (e : Entry) : Side → List ZoneNo
  | .lower => e.remoteLower
  | .upper => e.remoteUpper

/-- All remote holdings, in order along the track (R10). -/
def Entry.remote (e : Entry) : List ZoneNo := e.remoteLower ++ e.remoteUpper

/-- The zone lies in the neighbour segment on that side, as far as its span is known: out of the own segment, on the
side, the side not EDGE, and not beyond the far end of the neighbour's last consistent PRESENT (R2, R53). -/
def Station.inNeighbourSegment (st : Station) (d : Side) (g : ZoneNo) : Bool :=
  (st.localIndex g).isNone && st.sideOfZone g = d && (st.side d).state ≠ .edge &&
    match d, (st.side d).span with
    | _, none => true
    | .lower, some (origin, _) => origin / zoneLength ≤ g
    | .upper, some (origin, coils) => g < origin / zoneLength + coils

/-- The zone lies beyond the clip of R53: neither own nor in an adjacent neighbour's segment as far as known. -/
def Station.beyondClip (st : Station) (g : ZoneNo) : Bool :=
  (st.localIndex g).isNone && !st.inNeighbourSegment (st.sideOfZone g) g

/-- The station works frames, scans of its link and its timers: JOINING, ONLINE or MAINTENANCE (R110, R46). -/
def Station.running (st : Station) : Bool :=
  st.mode = .joining || st.mode = .online || st.mode = .maintenance

/-- The drive state is ON (R147). -/
def Station.driveOn (st : Station) : Bool := st.drive = .on

end Sys2Proof.Machine
end

