-- ==== Sys2Proof/Machine/Formats.lean ====
section
/-! DEFINITION. Byte layouts (12_formats.md): numbers, checks, frames on the line (R91, R92, R178 to R181), scans and
store pages (R183), responses and report records (R182). -/

namespace Sys2Proof.Machine

open Sys2Proof.Config

/-! ## Numbers, high byte first -/

/-- The low byte of a number. -/
def byte (n : Nat) : Byte := BitVec.ofNat 8 n

/-- Two bytes, high byte first. -/
def be2 (n : Nat) : List Byte := [byte (n / 256), byte n]

/-- Three bytes, high byte first. -/
def be3 (n : Nat) : List Byte := [byte (n / 65536), byte (n / 256), byte n]

/-- Four bytes, high byte first. -/
def be4 (n : Nat) : List Byte := [byte (n / 16777216), byte (n / 65536), byte (n / 256), byte n]

/-- A signed value in two bytes, two's complement. -/
def beSigned (i : Int) : List Byte := be2 (i % 65536).toNat

/-- The number two bytes hold. -/
def num2 (a b : Byte) : Nat := a.toNat * 256 + b.toNat

/-- The number three bytes hold. -/
def num3 (a b c : Byte) : Nat := a.toNat * 65536 + b.toNat * 256 + c.toNat

/-- The signed number two bytes hold. -/
def signed2 (a b : Byte) : Int := if num2 a b < 32768 then num2 a b else (num2 a b : Int) - 65536

/-- A mark: 0 clear, 1 set (R178). -/
def markByte (b : Bool) : Byte := if b then 1 else 0

/-- The eight bits of a byte, most significant first. -/
def byteBits (b : Byte) : List Bool := (List.range 8).map fun i => b.getLsbD (7 - i)

/-- The byte of eight bits, most significant first. -/
def byteOfBits (bits : List Bool) : Byte := bits.foldl (fun acc b => (acc <<< 1) ||| (if b then 1#8 else 0#8)) 0#8

/-- Whole bytes gathered from bits, most significant bit first; bits that fill no byte are discarded (R135, R160). -/
def gatherBytes : List Bool → List Byte
  | b7 :: b6 :: b5 :: b4 :: b3 :: b2 :: b1 :: b0 :: rest =>
    byteOfBits [b7, b6, b5, b4, b3, b2, b1, b0] :: gatherBytes rest
  | _ => []

/-! ## Checks -/

/-- One bit of the CRC-16 with polynomial x^16 + x^12 + x^5 + 1 (R92, R173). -/
def crc16Bit (crc : BitVec 16) : BitVec 16 := if crc.msb then (crc <<< 1) ^^^ 0x1021#16 else crc <<< 1

/-- One byte of the CRC-16, most significant bit first. -/
def crc16Byte (crc : BitVec 16) (b : Byte) : BitVec 16 :=
  (List.range 8).foldl (fun c _ => crc16Bit c) (crc ^^^ (b.setWidth 16 <<< 8))

/-- The CRC-16 of some bytes, initial value FFFFh, no final inversion (R92, R173). -/
def crc16 (bs : List Byte) : BitVec 16 := bs.foldl crc16Byte 0xFFFF#16

/-- One bit of the CRC-8 with polynomial x^8 + x^2 + x + 1 (R183). -/
def crc8Bit (crc : Byte) : Byte := if crc.msb then (crc <<< 1) ^^^ 0x07#8 else crc <<< 1

/-- The CRC-8 of some bytes, initial value 00h, no final inversion (R183). -/
def crc8 (bs : List Byte) : Byte :=
  bs.foldl (fun crc b => (List.range 8).foldl (fun c _ => crc8Bit c) (crc ^^^ b)) 0#8

/-! ## Codes of R178 -/

/-- Drive state and trip cause as two bytes: cause FFh unless TRIPPED (R178, R179). -/
def causeCode : TripCause → Nat
  | .coil k => k
  | .supply => 16

/-- Two bytes for a drive state with its trip cause. -/
def driveBytes : DriveState → List Byte
  | .off => [0, 0xFF]
  | .on => [1, 0xFF]
  | .tripped c => [2, byte (causeCode c)]

/-- The drive state that its two bytes give: TRIPPED with a cause of 0 to 16, OFF or ON with FFh (log entry 18). -/
def driveOfBytes (state cause : Byte) : Option DriveState :=
  if state = 0 ∧ cause = 0xFF then some .off
  else if state = 1 ∧ cause = 0xFF then some .on
  else if state = 2 ∧ cause.toNat < 16 then some (.tripped (.coil cause.toNat))
  else if state = 2 ∧ cause = 16 then some (.tripped .supply)
  else none

/-- Fault cause codes. -/
def faultCode : FaultCause → Nat
  | .follow => 1
  | .lost => 2
  | .driveTrip => 3
  | .neighbourTrip => 4
  | .handoverRefused => 5
  | .handoverLost => 6

/-- The fault cause of a code. -/
def faultOfCode : Nat → Option FaultCause
  | 1 => some .follow
  | 2 => some .lost
  | 3 => some .driveTrip
  | 4 => some .neighbourTrip
  | 5 => some .handoverRefused
  | 6 => some .handoverLost
  | _ => none

/-- Motion state and fault cause codes, two bytes. -/
def motionBytes : Motion → List Byte
  | .idle => [0, 0]
  | .moving => [1, 0]
  | .dwell => [2, 0]
  | .zoneWait => [3, 0]
  | .stopping => [4, 0]
  | .faulted c => [5, byte (faultCode c)]

/-- The motion state of its two bytes, when they agree (R181). -/
def motionOfBytes (motion cause : Byte) : Option Motion :=
  match motion.toNat with
  | 0 => if cause = 0 then some .idle else none
  | 1 => if cause = 0 then some .moving else none
  | 2 => if cause = 0 then some .dwell else none
  | 3 => if cause = 0 then some .zoneWait else none
  | 4 => if cause = 0 then some .stopping else none
  | 5 => (faultOfCode cause.toNat).map .faulted
  | _ => none

/-- Claim phase codes. -/
def phaseCode : ClaimPhase → Nat
  | .toSend => 0
  | .sent => 1
  | .queued => 2
  | .deferred => 3

/-- The claim phase of a code. -/
def phaseOfCode : Nat → Option ClaimPhase
  | 0 => some .toSend
  | 1 => some .sent
  | 2 => some .queued
  | 3 => some .deferred
  | _ => none

/-- Denial reason codes. -/
def denialCode : DenialReason → Nat
  | .outOfSegment => 1
  | .state => 2
  | .drive => 3
  | .blocked => 4
  | .closed => 5
  | .noAnswer => 6

/-- The denial reason of a code. -/
def denialOfCode : Nat → Option DenialReason
  | 1 => some .outOfSegment
  | 2 => some .state
  | 3 => some .drive
  | 4 => some .blocked
  | 5 => some .closed
  | 6 => some .noAnswer
  | _ => none

/-- REFUSED reason codes. -/
def refusalCode : HandoverRefusal → Nat
  | .unknown => 1
  | .conflict => 2
  | .state => 3

/-- The REFUSED reason of a code. -/
def refusalOfCode : Nat → Option HandoverRefusal
  | 1 => some .unknown
  | 2 => some .conflict
  | 3 => some .state
  | _ => none

/-- Order result codes. -/
def orderResultCode : OrderResult → Nat
  | .accepted => 0
  | .queueFull => 1
  | .faulted => 2
  | .stopping => 3
  | .badState => 4
  | .drift => 5
  | .retry => 6
  | .inTransit => 7
  | .notFound => 8

/-- The result an ORDER_REPLY can carry: codes 0 to 6 (R179). -/
def orderResultOfCode : Nat → Option OrderResult
  | 0 => some .accepted
  | 1 => some .queueFull
  | 2 => some .faulted
  | 3 => some .stopping
  | 4 => some .badState
  | 5 => some .drift
  | 6 => some .retry
  | _ => none

/-- Entry state codes. -/
def entryStateCode : EntryState → Nat
  | .stray => 0
  | .visitor => 1
  | .resident => 2
  | .handing => 3

/-- Station state codes. -/
def modeCode : Mode → Nat
  | .loading => 0
  | .unconfigured => 1
  | .joining => 2
  | .online => 3
  | .maintenance => 4

/-- Closed reason codes. -/
def closedCode : ClosedReason → Nat
  | .lost => 1
  | .mismatch => 2

/-- Side state and closed reason, two bytes. -/
def sideStateBytes : SideState → List Byte
  | .edge => [0, 0]
  | .unheard => [1, 0]
  | .opened => [2, 0]
  | .closed r => [3, byte (closedCode r)]

/-- Store operation codes. -/
def storeOpCode : StoreOp → Nat
  | .erase => 1
  | .commit => 2

/-- Watch mode codes (R182). -/
def watchModeCode : WatchMode → Nat
  | .off => 0
  | .list => 1
  | .all => 2

/-- The watch mode of a code (R182). -/
def watchModeOfCode : Nat → Option WatchMode
  | 0 => some .off
  | 1 => some .list
  | 2 => some .all
  | _ => none

/-- A station address, 63 for absent (R178). -/
def addressByte (a : Option Address) : Byte := byte (a.getD 63)

/-- A global zone, FFFFh for absent (R178). -/
def zoneBytes (g : Option ZoneNo) : List Byte := be2 (g.getD 65535)

/-- A neighbour field: 63 means NONE (R179). -/
def neighbourOfByte (b : Byte) : Option Address := if b = 63 then none else some b.toNat

/-- A mover ID of a frame: 1 to 4095 (R181). -/
def moverOk (m : Nat) : Bool := 1 ≤ m && m ≤ 4095

/-- A zone of a frame: 0 to 5591 (R181). -/
def zoneOk (g : Nat) : Bool := g ≤ lastZone

/-! ## Move records -/

/-- The 11 bytes of a move record (R178). -/
def MoveRecord.bytes (r : MoveRecord) : List Byte :=
  be2 r.tag ++ be3 r.target ++ be2 r.speed ++ [byte r.accel] ++ be2 (r.dwell.getD 0) ++
    [byte ((if r.report then 1 else 0) + (if r.dwell.isSome then 2 else 0))]

/-- The move record of raw fields, when each lies in its range (R44); a dwell whose flag is clear is absent. -/
def MoveParams.toRecord (p : MoveParams) : Option MoveRecord :=
  if p.tag ≤ 65535 ∧ p.target ≤ maxPosition ∧ 1 ≤ p.speed ∧ p.speed ≤ 400 ∧ 4 ≤ p.accel ∧ p.accel ≤ 40 ∧
      p.dwell ≤ 65535 then
    some { tag := p.tag, target := p.target, speed := p.speed, accel := p.accel,
           dwell := if p.flags / 2 % 2 = 1 then some p.dwell else none, report := p.flags % 2 = 1 }
  else none

/-- Raw fields of a move record from its 11 bytes (R178). -/
def moveParamsOfBytes : List Byte → Option MoveParams
  | [t1, t0, p2, p1, p0, s1, s0, a, d1, d0, f] =>
    some { tag := num2 t1 t0, target := num3 p2 p1 p0, speed := num2 s1 s0, accel := a.toNat,
           dwell := num2 d1 d0, flags := f.toNat }
  | _ => none

/-- A move record from its 11 bytes, when its fields lie in range (R181). -/
def moveRecordOfBytes (bs : List Byte) : Option MoveRecord := (moveParamsOfBytes bs).bind MoveParams.toRecord

/-- Exactly `n` move records from 11 · n bytes. -/
def moveRecordsOfBytes : Nat → List Byte → Option (List MoveRecord)
  | 0, bs => if bs = [] then some [] else none
  | n + 1, bs => do
    let r ← moveRecordOfBytes (bs.take 11)
    let rest ← moveRecordsOfBytes n (bs.drop 11)
    return r :: rest

/-! ## Frames: kind, class, payload -/

/-- Frame kind codes (R178). -/
def Frame.kind : Frame → Nat
  | .present _ => 1
  | .notice _ => 2
  | .claim .. => 3
  | .cancel .. => 4
  | .grant .. => 5
  | .queued .. => 6
  | .denied .. => 7
  | .deferred .. => 8
  | .release .. => 9
  | .handover _ => 10
  | .taken _ => 11
  | .refused .. => 12
  | .track .. => 13
  | .order .. => 14
  | .orderReply .. => 15

/-- Priority class of a kind (R97). -/
def Frame.priority : Frame → Nat
  | .notice _ | .track .. => 0
  | .handover _ | .taken _ | .refused .. => 1
  | .claim .. | .cancel .. | .grant .. | .queued .. | .denied .. | .deferred .. | .release .. => 2
  | .present _ | .order .. | .orderReply .. => 3

/-- The kind is TRACK, the one kind that is not acknowledged when directed (R95, R97). -/
def Frame.isTrack : Frame → Bool
  | .track .. => true
  | _ => false

/-- A frame to that destination is acknowledged: not a broadcast and not a TRACK (R97). -/
def Frame.acknowledged (f : Frame) (destination : Address) : Bool := destination != 63 && !f.isTrack

/-- A run as first zone and count, FFFFh with count 0 (R180). -/
def runBytes (run : ZoneNo × Nat) : List Byte :=
  if run.2 = 0 then [0xFF, 0xFF, 0] else be2 run.1 ++ [byte run.2]

/-- The claim fields of a HANDOVER (R180, bytes 13 to 17). When no claim travelled R180 gives the phase and the zone, and of
the sends made and the periods since send their ranges alone: the model sends 0 and 0 (DESIGN CHOICE, log entry 12). -/
def carriedClaimBytes : Option CarriedClaim → List Byte
  | none => [0xFF, 0xFF, 0xFF, 0, 0]
  | some c => [byte (phaseCode c.phase)] ++ be2 c.zone ++ [byte c.sends, byte c.periods]

/-- The denied zone of a HANDOVER with its reason (R180, bytes 24 to 26). -/
def deniedBytes : Option (ZoneNo × DenialReason) → List Byte
  | none => [0xFF, 0xFF, 0]
  | some (z, r) => be2 z ++ [byte (denialCode r)]

/-- The payload of a HANDOVER (R180). A zone wait count above 65535 is carried as 65535 (R178). -/
def HandoverContent.bytes (c : HandoverContent) : List Byte :=
  be2 c.mover ++ motionBytes c.motion ++ be3 c.setpoint ++ beSigned c.velocity ++ be2 c.dwellRemaining ++
    be2 (min c.zoneWaitCount 65535) ++ carriedClaimBytes c.claim ++ runBytes c.receiverRun ++
    runBytes c.senderRun ++ deniedBytes c.denied ++
    [byte ((if c.active.isSome then 16 else 0) + c.queue.length), byte c.flushedAtStop] ++
    (c.active.toList ++ c.queue).flatMap MoveRecord.bytes

/-- The kind of an order with its move record (R178, R179). -/
def orderKindBytes : OrderKind → List Byte
  | .move r => [1] ++ r.bytes
  | .abort => [2]
  | .clear => [3]

/-- The payload of a frame (R179). -/
def Frame.payload : Frame → List Byte
  | .present p =>
    be3 p.origin ++ [byte p.coils, addressByte p.lower, addressByte p.upper,
      byte ((if p.fresh then 1 else 0) + (if p.answerWanted then 2 else 0))] ++ driveBytes p.drive
  | .notice d => driveBytes d
  | .claim m z f => be2 m ++ be2 z ++ [markByte f]
  | .cancel m z | .grant m z | .deferred m z => be2 m ++ be2 z
  | .queued m z p => be2 m ++ be2 z ++ [byte p]
  | .denied m z r => be2 m ++ be2 z ++ [byte (denialCode r)]
  | .release m z n => be2 m ++ be2 z ++ [byte n]
  | .handover c => c.bytes
  | .taken m => be2 m
  | .refused m r => be2 m ++ [byte (refusalCode r)]
  | .track m p v d => be2 m ++ be3 p ++ beSigned v ++ beSigned d
  | .order t m k => [byte t] ++ be2 m ++ orderKindBytes k
  | .orderReply t m r => [byte t] ++ be2 m ++ [byte (orderResultCode r)]

/-- A run from its three bytes (R180, R181): count 0 with FFFFh or a zone, or 1 to 16 zones up to 5591. -/
def runOfBytes (z1 z0 n : Byte) : Option (ZoneNo × Nat) :=
  if n = 0 then if num2 z1 z0 = 65535 ∨ zoneOk (num2 z1 z0) then some (65535, 0) else none
  else if n.toNat ≤ 16 ∧ num2 z1 z0 + n.toNat ≤ lastZone + 1 then some (num2 z1 z0, n.toNat)
  else none

/-- The claim of a HANDOVER from its five bytes (R180, R181). -/
def carriedClaimOfBytes (p z1 z0 s t : Byte) : Option (Option CarriedClaim) :=
  if p = 0xFF then if num2 z1 z0 = 65535 ∨ zoneOk (num2 z1 z0) then some none else none
  else do
    let phase ← phaseOfCode p.toNat
    if zoneOk (num2 z1 z0) ∧ s.toNat ≤ 3 ∧ t.toNat ≤ 8 then
      some (some { zone := num2 z1 z0, phase := phase, sends := s.toNat, periods := t.toNat })
    else none

/-- The denied zone of a HANDOVER from its three bytes (R180, R181). -/
def deniedOfBytes (z1 z0 r : Byte) : Option (Option (ZoneNo × DenialReason)) :=
  if num2 z1 z0 = 65535 then if r = 0 then some none else none
  else if zoneOk (num2 z1 z0) then (denialOfCode r.toNat).map fun reason => some (num2 z1 z0, reason)
  else none

/-- A velocity in its range (R181). -/
def velocityOk (v : Int) : Bool := -400 ≤ v && v ≤ 400

/-- A demand in its range (R181). -/
def demandOk (d : Int) : Bool := -1000 ≤ d && d ≤ 1000

/-- A HANDOVER from its payload, when it passes the checks of R181. -/
def handoverOfBytes : List Byte → Option HandoverContent
  | m1 :: m0 :: mo :: fc :: p2 :: p1 :: p0 :: v1 :: v0 :: d1 :: d0 :: w1 :: w0 :: cp :: cz1 :: cz0 :: cs :: ct ::
      r1 :: r0 :: rn :: s1 :: s0 :: sn :: dz1 :: dz0 :: dr :: n :: fl :: records => do
    let motion ← motionOfBytes mo fc
    let claim ← carriedClaimOfBytes cp cz1 cz0 cs ct
    let receiverRun ← runOfBytes r1 r0 rn
    let senderRun ← runOfBytes s1 s0 sn
    let denied ← deniedOfBytes dz1 dz0 dr
    let hasActive := n.toNat / 16 % 2 = 1
    let queued := n.toNat % 16
    if moverOk (num2 m1 m0) && velocityOk (signed2 v1 v0) && n.toNat < 32 && queued ≤ 8 && fl.toNat ≤ 8 &&
        (motion = .stopping || fl = 0) then
      let moves ← moveRecordsOfBytes ((if hasActive then 1 else 0) + queued) records
      return { mover := num2 m1 m0, motion := motion, setpoint := num3 p2 p1 p0, velocity := signed2 v1 v0,
               dwellRemaining := num2 d1 d0, zoneWaitCount := num2 w1 w0, claim := claim,
               receiverRun := receiverRun, senderRun := senderRun, denied := denied,
               active := if hasActive then moves.head? else none,
               queue := if hasActive then moves.tail else moves, flushedAtStop := fl.toNat }
    else none
  | _ => none

/-- The order kind and record of an ORDER's payload after its mover; a MOVE is 15 bytes long, the others 4 (R179). -/
def orderKindOfBytes : List Byte → Option OrderKind
  | k :: rest =>
    if k = 1 then (moveRecordOfBytes rest).map .move
    else if k = 2 ∧ rest = [] then some .abort
    else if k = 3 ∧ rest = [] then some .clear
    else none
  | [] => none

/-- A PRESENT from its payload, when it passes the checks of R181. -/
def presentOfBytes : List Byte → Option Present
  | [o2, o1, o0, c, lo, up, f, d, t] => do
    let drive ← driveOfBytes d t
    if num3 o2 o1 o0 % zoneLength = 0 ∧ 8 ≤ c.toNat ∧ c.toNat ≤ 16 ∧ lo.toNat ≤ 63 ∧ up.toNat ≤ 63 then
      some { origin := num3 o2 o1 o0, coils := c.toNat, lower := neighbourOfByte lo, upper := neighbourOfByte up,
             fresh := f.getLsbD 0, answerWanted := f.getLsbD 1, drive := drive }
    else none
  | _ => none

/-- A frame from its kind and payload, when it passes the checks of R181; none when it is malformed. -/
def parseFrame (kind : Nat) (payload : List Byte) : Option Frame :=
  match kind, payload with
  | 1, bs => (presentOfBytes bs).map .present
  | 2, [d, t] => (driveOfBytes d t).map .notice
  | 3, [m1, m0, z1, z0, f] =>
    if moverOk (num2 m1 m0) && zoneOk (num2 z1 z0) then some (.claim (num2 m1 m0) (num2 z1 z0) (f.getLsbD 0))
    else none
  | 4, [m1, m0, z1, z0] =>
    if moverOk (num2 m1 m0) && zoneOk (num2 z1 z0) then some (.cancel (num2 m1 m0) (num2 z1 z0)) else none
  | 5, [m1, m0, z1, z0] =>
    if moverOk (num2 m1 m0) && zoneOk (num2 z1 z0) then some (.grant (num2 m1 m0) (num2 z1 z0)) else none
  | 6, [m1, m0, z1, z0, p] =>
    if moverOk (num2 m1 m0) && zoneOk (num2 z1 z0) && 1 ≤ p.toNat && p.toNat ≤ 4 then
      some (.queued (num2 m1 m0) (num2 z1 z0) p.toNat)
    else none
  | 7, [m1, m0, z1, z0, r] =>
    if moverOk (num2 m1 m0) && zoneOk (num2 z1 z0) && r.toNat ≤ 4 then
      (denialOfCode r.toNat).map (.denied (num2 m1 m0) (num2 z1 z0))
    else none
  | 8, [m1, m0, z1, z0] =>
    if moverOk (num2 m1 m0) && zoneOk (num2 z1 z0) then some (.deferred (num2 m1 m0) (num2 z1 z0)) else none
  | 9, [m1, m0, z1, z0, n] =>
    if moverOk (num2 m1 m0) && zoneOk (num2 z1 z0) && 1 ≤ n.toNat && n.toNat ≤ 16 &&
        num2 z1 z0 + n.toNat ≤ lastZone + 1 then
      some (.release (num2 m1 m0) (num2 z1 z0) n.toNat)
    else none
  | 10, bs => (handoverOfBytes bs).map .handover
  | 11, [m1, m0] => if moverOk (num2 m1 m0) then some (.taken (num2 m1 m0)) else none
  | 12, [m1, m0, r] =>
    if moverOk (num2 m1 m0) then (refusalOfCode r.toNat).map (.refused (num2 m1 m0)) else none
  | 13, [m1, m0, p2, p1, p0, v1, v0, d1, d0] =>
    if moverOk (num2 m1 m0) && velocityOk (signed2 v1 v0) && demandOk (signed2 d1 d0) then
      some (.track (num2 m1 m0) (num3 p2 p1 p0) (signed2 v1 v0) (signed2 d1 d0))
    else none
  | 14, t :: m1 :: m0 :: rest =>
    if moverOk (num2 m1 m0) then (orderKindOfBytes rest).map (.order t.toNat (num2 m1 m0)) else none
  | 15, [t, m1, m0, r] =>
    if moverOk (num2 m1 m0) then (orderResultOfCode r.toNat).map (.orderReply t.toNat (num2 m1 m0)) else none
  | _, _ => none

/-! ## The line -/

/-- The contention byte: class in the two upper bits, source address in the six lower bits (R92). -/
def contentionByte (priority : Nat) (source : Address) : Byte := byte (priority * 64 + source)

/-- The check over destination, kind, length and payload (R92). -/
def frameCheck (destination kind : Nat) (payload : List Byte) : BitVec 16 :=
  crc16 ([byte destination, byte kind, byte payload.length] ++ payload)

/-- The bytes of a frame on the line, contention byte to check (R92). -/
def wireBytes (priority : Nat) (source destination : Address) (f : Frame) : List Byte :=
  [contentionByte priority source, byte destination, byte f.kind, byte f.payload.length] ++ f.payload ++
    be2 (frameCheck destination f.kind f.payload).toNat

/-- The ten bits of a character: dominant lead bit, the byte, recessive trail bit (R91). -/
def charBits (b : Byte) : List Bool := false :: byteBits b ++ [true]

/-- The bits of a frame from the start bit to the trail bit of the check (R91, R92). -/
def wireBits (priority : Nat) (source destination : Address) (f : Frame) : List Bool :=
  false :: (wireBytes priority source destination f).flatMap charBits

/-- One character read on the line: none for a recessive lead bit, a dominant trail bit or a line gone idle (R91). -/
def readChar : List Bool → Option (Byte × List Bool)
  | false :: b7 :: b6 :: b5 :: b4 :: b3 :: b2 :: b1 :: b0 :: true :: rest =>
    some (byteOfBits [b7, b6, b5, b4, b3, b2, b1, b0], rest)
  | _ => none

/-- `n` characters read on the line. -/
def readChars : Nat → List Bool → Option (List Byte × List Bool)
  | 0, bits => some ([], bits)
  | n + 1, bits => do
    let (b, rest) ← readChar bits
    let (bs, rest) ← readChars n rest
    return (b :: bs, rest)

/-- What a receiver makes of the line (R91, R92, R105). -/
inductive LineReading
  | nothing
  | error
  | frame (f : RxFrame)
deriving DecidableEq, Repr

/-- The characters of a frame after its start bit: header, payload of the length given (above 128 is a framing error),
check; none for a framing error or a check that does not match (R91, R92, R105). No check covers the source: 63 is
accepted (log entry 44). -/
def readBody (bits : List Bool) : Option RxFrame := do
  let (c, bits) ← readChar bits
  let (d, bits) ← readChar bits
  let (k, bits) ← readChar bits
  let (n, bits) ← readChar bits
  if n.toNat ≤ 128 then
    let (payload, bits) ← readChars n.toNat bits
    let (hi, bits) ← readChar bits
    let (lo, _) ← readChar bits
    if frameCheck d.toNat k.toNat payload = BitVec.ofNat 16 (num2 hi lo) then
      return { source := c.toNat % 64, destination := d.toNat, kind := k.toNat, payload := payload }
    else none
  else none

/-- Reads the line from the start bit on; a recessive first bit is no frame (R91, R92). -/
def readLine : List Bool → LineReading
  | false :: bits =>
    match readBody bits with
    | some f => .frame f
    | none => .error
  | _ => .nothing

/-- A rival's contention byte beats the own one: at the first bit, most significant first, in which they differ, the
own station drives recessive and reads dominant (R93). -/
def contentionLost (own rival : Byte) : Bool :=
  match (List.zip (byteBits own) (byteBits rival)).find? (fun p => p.1 != p.2) with
  | some (ownBit, _) => ownBit
  | none => false

/-! ## Scans (R137, R183) -/

/-- A scan as its sequence number and its sightings, each a tag and a local position. -/
structure Scan where
  seq : Nat
  sightings : List (Nat × Nat)
deriving DecidableEq, Repr

/-- Sightings of four bytes each. -/
def sightingsOfBytes : List Byte → List (Nat × Nat)
  | t1 :: t0 :: p1 :: p0 :: rest => (num2 t1 t0, num2 p1 p0) :: sightingsOfBytes rest
  | _ => []

/-- A scan from the whole bytes gathered; none when it is bad: too short for its count byte, a count above 8, a length
other than 3 + 4·count, or a check that does not match (R137, R183). -/
def scanOfBytes (bs : List Byte) : Option Scan :=
  match bs with
  | q :: n :: rest =>
    if n.toNat ≤ 8 ∧ bs.length = 3 + 4 * n.toNat ∧ bs.getLast? = some (crc8 bs.dropLast) then
      some { seq := q.toNat, sightings := sightingsOfBytes (rest.take (4 * n.toNat)) }
    else none
  | _ => none

/-! ## Store pages (R112, R173, R183) -/

/-- The stored check of a page matches the one worked out over bytes 0 to 61. -/
def pageCheckOk (read : Nat → Byte) : Bool :=
  crc16 ((List.range 62).map read) = BitVec.ofNat 16 (num2 (read 62) (read 63))

/-- The idle-level set of byte 18 (R183). -/
def idleOfByte (b : Byte) : Switches :=
  { ah := b.getLsbD 3, al := b.getLsbD 2, bh := b.getLsbD 1, bl := b.getLsbD 0 }

/-- The configuration record of page 0's bytes when every field lies in its range (R173, R183) and the three further
tests of R112 pass; the check and the mark are judged beside it. -/
def recordOfPage (read : Nat → Byte) : Option Record :=
  let address := (read 0).toNat
  let lower := (read 1).toNat
  let upper := (read 2).toNat
  let origin := num3 (read 3) (read 4) (read 5)
  let coils := (read 6).toNat
  let period := (read 7).toNat
  let rate := (read 8).toNat
  let follow := num2 (read 9) (read 10)
  let wait := num2 (read 11) (read 12)
  let gain := (read 13).toNat
  let stop := (read 14).toNat
  let top := num2 (read 15) (read 16)
  let deadtime := (read 17).toNat
  if address ≤ 62 ∧ lower ≤ 63 ∧ upper ≤ 63 ∧ origin % zoneLength = 0 ∧ 8 ≤ coils ∧ coils ≤ 16 ∧ period ≤ 2 ∧
      rate ≤ 1 ∧ 200 ≤ follow ∧ follow ≤ 2000 ∧ 1 ≤ gain ∧ 4 ≤ stop ∧ stop ≤ 40 ∧ 600 ≤ top ∧ top ≤ 4000 ∧
      (read 18).toNat < 16 ∧ lower ≠ address ∧ upper ≠ address ∧ (lower = upper → lower = 63) ∧
      origin / zoneLength + coils ≤ lastZone + 1 then
    some { address := address, lower := neighbourOfByte (read 1), upper := neighbourOfByte (read 2),
           origin := origin, coils := coils, periodCode := period, rateCode := rate, followLimit := follow,
           zoneWaitLimit := wait, gain := gain, stopAccel := stop, pwmTop := top, deadtime := deadtime,
           idle := idleOfByte (read 18) }
  else none

/-- Page 1's block flag of local zone k: set when its bit is 0 (R183). -/
def blockFlag (read : Nat → Byte) (k : Nat) : Bool := !(read (k / 8)).getLsbD (k % 8)

/-! ## Reports and responses (R182) -/

/-- Kind numbers, in the order of the table of R167. -/
def ReportBody.kindNumber : ReportBody → Nat
  | .moveDone .. => 1
  | .moveAborted .. => 2
  | .zoneTimeout .. => 3
  | .zoneDenied .. => 4
  | .moverFault .. => 5
  | .driveTrip _ => 6
  | .trackLoss _ => 7
  | .sideOpen _ => 8
  | .sideClosed .. => 9
  | .neighbourRestart _ => 10
  | .neighbourTrip .. => 11
  | .neighbourResume _ => 12
  | .orderResult .. => 13
  | .watchOwner .. => 14
  | .joined => 15
  | .straySeen .. => 16
  | .storeDone .. => 17
  | .storeInvalid _ => 18

/-- The mover item of a report (R167). -/
def ReportBody.mover? : ReportBody → Option MoverId
  | .moveDone m _ | .moveAborted m _ _ | .zoneTimeout m _ _ | .zoneDenied m _ _ _ | .moverFault m _ _ _
  | .trackLoss m | .orderResult m _ _ _ | .watchOwner m _ _ | .straySeen m _ => some m
  | .driveTrip _ | .sideOpen _ | .sideClosed .. | .neighbourRestart _ | .neighbourTrip .. | .neighbourResume _
  | .joined | .storeDone .. | .storeInvalid _ => none

/-- The zone item of a report (R167). -/
def ReportBody.zone? : ReportBody → Option ZoneNo
  | .zoneTimeout _ z _ => z
  | .zoneDenied _ z _ _ | .straySeen _ z => some z
  | _ => none

/-- The station item of a report (R167). -/
def ReportBody.station? : ReportBody → Option Address
  | .sideOpen n | .sideClosed n _ | .neighbourRestart n | .neighbourTrip n _ | .neighbourResume n
  | .watchOwner _ n _ => some n
  | .orderResult _ n _ _ => n
  | _ => none

/-- The move tag item of a report (R167); ORDER_RESULT carries its order tag there. -/
def ReportBody.tag? : ReportBody → Option Nat
  | .moveDone _ t | .zoneTimeout _ _ t | .zoneDenied _ _ t _ | .orderResult _ _ t _ => some t
  | .moveAborted _ t _ => t
  | _ => none

/-- The three detail bytes of a report (R167, R182). -/
def ReportBody.detail : ReportBody → List Byte
  | .moveAborted _ _ n => [byte n, 0, 0]
  | .zoneDenied _ _ _ r => [byte (denialCode r), 0, 0]
  | .moverFault _ c n r => [byte (faultCode c), byte n, byte ((r.map refusalCode).getD 0)]
  | .driveTrip c | .neighbourTrip _ c => [byte (causeCode c), 0, 0]
  | .sideClosed _ r => [byte (closedCode r), 0, 0]
  | .orderResult _ _ _ r => [byte (orderResultCode r), 0, 0]
  | .watchOwner _ _ p => [byte p, 0, 0]
  | .storeDone op p => [byte (storeOpCode op), byte p, 0]
  | .storeInvalid p => [byte p, 0, 0]
  | .moveDone .. | .zoneTimeout .. | .trackLoss _ | .sideOpen _ | .neighbourRestart _ | .neighbourResume _
  | .joined | .straySeen .. => [0, 0, 0]

/-- The 19 bytes of a report record (R182). -/
def ReportRecord.bytes (r : ReportRecord) : List Byte :=
  be2 r.seq ++ be4 r.time ++ [byte r.body.reportClass.number, byte r.body.kindNumber,
    byte ((if r.body.mover?.isSome then 1 else 0) + (if r.body.zone?.isSome then 2 else 0) +
      (if r.body.station?.isSome then 4 else 0) + (if r.body.tag?.isSome then 8 else 0))] ++
    be2 (r.body.mover?.getD 0) ++ zoneBytes r.body.zone? ++ [addressByte r.body.station?] ++
    be2 (r.body.tag?.getD 0) ++ r.body.detail

/-- A position in a response: presence mark, then the position or FFFFFFh (R178). -/
def positionBytes : Option Position → List Byte
  | some p => [1] ++ be3 p
  | none => [0, 0xFF, 0xFF, 0xFF]

/-- A trip cause, FFh for none (R178). -/
def causeByte : Option TripCause → Byte
  | some c => byte (causeCode c)
  | none => 0xFF

/-- Result codes (R182). -/
def resultByte : ResultCode → Byte
  | .ok => 0
  | .accepted => 1
  | .busy => 2
  | .refused => 3
  | .badParam => 4
  | .notFound => 5
  | .state => 6

/-- Refusal reason codes (R182). -/
def reasonByte : RefuseReason → Byte
  | .inTransit => 1
  | .stray => 2
  | .faulted => 3
  | .stopping => 4
  | .queueFull => 5
  | .badState => 6
  | .drift => 7
  | .notStray => 8
  | .zoneBusy => 9
  | .outOfSegment => 10
  | .moversActive => 11
  | .driveOn => 12
  | .tripActive => 13

/-- First zone and count of an ascending unbroken run, FFFFh and 0 for none (R18, R178). Of remote holdings toward both sides
the first zone and the count of all are shown (log entry 12). -/
def holdingBytes (zones : List ZoneNo) : List Byte := zoneBytes zones.head? ++ [byte zones.length]

/-- The entry's motion fields are held (R7): RESIDENT and HANDING. -/
def Entry.runsMotion (e : Entry) : Bool := e.state = .resident || e.state = .handing

/-- The items of READ MOVER in the order of the table of R18. An absent item with no absent encoding of its own (motion
state, velocity, a shadow's velocity and demand) is the free bytes of log entry 12; an optional record is a list of 0 or
1, and the periods of a claim or handover and the age of a shadow are one byte each (log entry 12). -/
def moverBytes (e : Entry) (ownFirst : ZoneNo) (ownCount : Nat) : List Byte :=
  [byte (entryStateCode e.state), addressByte e.owner] ++
  (if e.runsMotion then motionBytes e.motion else [absentByte 0, 0]) ++
  (if e.runsMotion then positionBytes (some e.setpoint) else positionBytes none) ++
  (if e.runsMotion then beSigned e.velocity else [absentByte 6, absentByte 7]) ++ beSigned e.demand ++
  positionBytes e.actual ++ [byte e.lossCount, byte e.followCount] ++
  [byte e.active.toList.length] ++ e.active.toList.flatMap MoveRecord.bytes ++
  [byte e.queue.length] ++ e.queue.flatMap (fun r => be2 r.tag) ++
  be2 e.dwellRemaining ++ be2 (min e.zoneWaitCount 65535) ++ zoneBytes (e.denied.map (·.1)) ++
  (match e.claim with
    | some c => be2 c.zone ++ [byte (phaseCode c.phase), byte c.sends, byte c.periods, byte c.place]
    | none => [0xFF, 0xFF, 0xFF, 0, 0, 0]) ++
  (if ownCount = 0 then [0xFF, 0xFF, 0] else be2 ownFirst ++ [byte ownCount]) ++
  holdingBytes e.remote ++
  [markByte e.claimDue.isSome, markByte e.cancelDue.isSome,
   markByte (e.releaseLower.isSome || e.releaseUpper.isSome), markByte e.trackDue.isSome,
   markByte e.handover.isSome, markByte e.takenDue.isSome] ++
  (match e.handover with
    | some h => [byte h.target, byte h.attempts, byte h.waiting]
    | none => [63, 0, 0]) ++
  [addressByte e.previousOwner, addressByte e.lostTarget] ++
  (match e.shadow with
    | some w => positionBytes (some w.setpoint) ++ beSigned w.velocity ++ beSigned w.demand ++
        [byte w.age, markByte w.valid]
    | none => positionBytes none ++ [absentByte 8, absentByte 9, absentByte 10, absentByte 11, 0, 0])

/-- The items of READ ZONE (R38). R178 gives the zone's state no codes: FREE, HELD and BLOCKED are 0, 1 and 2 (log entry
12). -/
def zoneEntryBytes (k : Nat) (z : Zone) : List Byte :=
  byte k :: (match z.state with
    | .free => [0] ++ be2 0 ++ [63]
    | .held m n => [1] ++ be2 m ++ [byte n]
    | .blocked => [2] ++ be2 0 ++ [63]) ++
  [markByte z.grantOwed.isSome, byte z.waiting.length] ++
  z.waiting.flatMap fun c => be2 c.mover ++ [byte c.station, markByte c.entryFlag, markByte c.queuedOwed.isSome]

/-- The items of one side in READ SIDES (R123), the probe count one byte (log entry 12). -/
def sideBytes (r : SideRecord) : List Byte :=
  [addressByte r.neighbour] ++ sideStateBytes r.state ++ [markByte r.openedSinceLoading] ++
  (match r.span with
    | some (o, c) => positionBytes (some o) ++ [byte c]
    | none => positionBytes none ++ [0]) ++
  (match r.drive with
    | some d => driveBytes d
    | none => [absentByte 1, 0xFF]) ++
  [markByte r.trippedMark, byte r.probeCount, markByte r.presentDue.isSome,
   markByte (r.presentDue.any (·.1))]

/-- The items of STATUS in the order of the table of R165. The join count is one byte, the expected scan number stands after
a presence mark, and the six flags and the six masks are one class byte each (log entry 12). -/
def statusBytes (c : StatusCopy) : List Byte :=
  [byte (modeCode c.mode)] ++
  (match c.record with
    | some r => [byte r.address] ++ positionBytes (some r.origin) ++
        [byte r.coils, byte r.periodCode, byte r.rateCode]
    | none => [63] ++ positionBytes none ++ [0, absentByte 2, absentByte 3]) ++
  be4 c.periodCount ++ [byte (c.joinCount.getD 0)] ++
  driveBytes c.drive ++ [causeByte c.latch] ++
  (List.range 16).map (fun k => markByte (c.overCurrent.getLsbD k)) ++ [markByte c.supplyLow] ++
  [byte c.strays, byte c.visitors, byte c.residents, byte c.handings, byte c.zonesFree, byte c.zonesHeld,
   byte c.zonesBlocked, byte c.waitingClaims] ++
  sideStateBytes c.lowerState ++ [markByte c.lowerTripped] ++
  sideStateBytes c.upperState ++ [markByte c.upperTripped] ++
  [byte c.rxFrames, markByte c.rxStalled, byte c.sendsInUse] ++
  be2 c.linkCounters.receiveErrors ++ be2 c.linkCounters.turnedAway ++ be2 c.linkCounters.missedFrames ++
  be2 c.linkCounters.foreignFrames ++ be2 c.linkCounters.deliveryFailures ++ be2 c.linkCounters.droppedReplies ++
  be2 c.linkCounters.disturbedAttempts ++
  [byte c.ordersInUse, byte c.nextTag, byte (watchModeCode c.watchMode), byte c.watchCount] ++
  (match c.expectedScan with
    | some n => [1, byte n]
    | none => [0, absentByte 4]) ++
  be2 c.sightingCounters.scanErrors ++ be2 c.sightingCounters.missedScans ++
  be2 c.sightingCounters.droppedSightings ++ be2 c.sightingCounters.untrackedSightings ++
  (match c.busy with
    | some (op, p) => [byte (storeOpCode op), byte p]
    | none => [0, absentByte 5]) ++
  [markByte c.mark0, markByte c.mark1, byte c.reports] ++ be2 c.nextSeq ++
  [byte c.overflow, c.flags.setWidth 8, c.masks.setWidth 8, byte c.threshold, byte c.age] ++
  be2 c.timerCount ++ [markByte c.timerRunning, markByte c.lineAsserted]

/-- The data bytes of a response, by the rule that owns the command (R182). The flags of ACK FLAGS are one class byte and
the join count of READ SIDES one byte (log entry 12). -/
def ReplyData.bytes : ReplyData → List Byte
  | .empty => []
  | .reason r => [reasonByte r]
  | .tripActive c => [reasonByte .tripActive, byte (causeCode c)]
  | .number n => [byte n]
  | .numbers a b => [byte a, byte b]
  | .flags f => [f.setWidth 8]
  | .status c => statusBytes c
  | .moverList ms => [byte ms.length] ++ ms.flatMap fun p => be2 p.1 ++ [byte (entryStateCode p.2)]
  | .mover e first count => moverBytes e first count
  | .zone k z => zoneEntryBytes k z
  | .sides m j lo up => [byte (modeCode m), byte j] ++ sideBytes lo ++ sideBytes up
  | .reports rs left overflow =>
    [byte rs.length] ++ rs.flatMap ReportRecord.bytes ++ [byte left, byte overflow]
  | .page bs mark => bs ++ [markByte mark]

/-- The bytes of the response buffer: length, sequence number, result code, data; the empty response is the single
byte 0 (R162, R182). -/
def responseBytes : Option Response → List Byte
  | none => [0]
  | some r => byte (3 + r.data.bytes.length) :: byte r.seq :: resultByte r.result :: r.data.bytes

end Sys2Proof.Machine
end

