-- ==== Sys2Proof/Machine/Table.lean ====
section
/-! DEFINITION. Named access to the records of the station: the Mover Table (R5), the zone table (section 2.1), due marks
(R102), the Send List (R101), reports of the event under way, and the saturating counters. -/

namespace Sys2Proof.Machine

open Sys2Proof.Config

/-! ## Mover Table -/

/-- The entry of a mover (R5: a mover ID appears in at most one). -/
def Station.entry? (st : Station) (m : MoverId) : Option Entry := st.entries.find? (·.id = m)

/-- Puts an entry in its place in ascending mover ID, replacing the mover's own; entries have no order among themselves
(R5), so this one list stands for the table. -/
def insertEntry (e : Entry) : List Entry → List Entry
  | [] => [e]
  | x :: xs => if e.id < x.id then e :: x :: xs else if e.id = x.id then e :: xs else x :: insertEntry e xs

/-- The station with a mover's entry made or replaced. -/
def Station.putEntry (st : Station) (e : Entry) : Station := { st with entries := insertEntry e st.entries }

/-- The station with a mover's entry changed, if it has one. -/
def Station.modifyEntry (st : Station) (m : MoverId) (f : Entry → Entry) : Station :=
  { st with entries := st.entries.map fun e => if e.id = m then f e else e }

/-- The station with a mover's entry gone. -/
def Station.eraseEntry (st : Station) (m : MoverId) : Station :=
  { st with entries := st.entries.filter (·.id ≠ m) }

/-- All 12 entries are in use (R5). -/
def Station.tableFull (st : Station) : Bool := tableSize ≤ st.entries.length

/-- The movers of the table, in ascending ID (R46). -/
def Station.movers (st : Station) : List MoverId := st.entries.map (·.id)

/-- The mover's entry is VISITOR with that owner station. -/
def Entry.visitorOf (e : Entry) (n : Address) : Bool := e.state = .visitor && e.owner = some n

/-- The mover's entry is HANDING with that handing target (R68). -/
def Entry.handingTo (e : Entry) (n : Address) : Bool := e.state = .handing && e.handover.any (·.target = n)

/-- The entry is RESIDENT, FAULTED with HANDOVER_LOST, and `n` is its lost-handover target (R81, R82). -/
def Entry.lostTo (e : Entry) (n : Address) : Bool :=
  e.state = .resident && e.motion = .faulted .handoverLost && e.lostTarget = some n

/-! ## Zone table -/

/-- The zone entry of a local index. -/
def Station.zone? (st : Station) (k : Nat) : Option Zone := st.zones[k]?

/-- The station with a zone entry changed. -/
def Station.modifyZone (st : Station) (k : Nat) (f : Zone → Zone) : Station := { st with zones := st.zones.modify k f }

/-- A zone state is HELD, whatever the holder. -/
def ZoneState.isHeld : ZoneState → Bool
  | .held .. => true
  | .free | .blocked => false

/-- The zone is HELD by that mover, whatever the holder station. -/
def ZoneState.heldBy (m : MoverId) : ZoneState → Bool
  | .held h _ => h = m
  | .free | .blocked => false

/-- The zone is HELD with that holder station. -/
def ZoneState.heldFor (n : Address) : ZoneState → Bool
  | .held _ s => s = n
  | .free | .blocked => false

/-- Local zone k is HELD by the mover. -/
def Station.holds (st : Station) (m : MoverId) (k : Nat) : Bool := (st.zone? k).any (·.state.heldBy m)

/-- Local zone k is FREE. -/
def Station.zoneFree (st : Station) (k : Nat) : Bool := (st.zone? k).any (·.state = .free)

/-- The local indices of the own zones, ascending. -/
def Station.localZones (st : Station) : List Nat := List.range st.zones.length

/-- The own zones that a mover holds, by local index, ascending. -/
def Station.holdings (st : Station) (m : MoverId) : List Nat := st.localZones.filter (st.holds m)

/-- The mover has a claim in zone k's wait list. -/
def Station.claims (st : Station) (m : MoverId) (k : Nat) : Bool :=
  (st.zone? k).any fun z => z.waiting.any (·.mover = m)

/-- The own zones in whose wait lists a mover has a claim, ascending. -/
def Station.claimedZones (st : Station) (m : MoverId) : List Nat := st.localZones.filter (st.claims m)

/-- Ascending numbers, each one above the one before: an unbroken run. -/
def unbroken : List Nat → Bool
  | a :: b :: rest => b = a + 1 && unbroken (b :: rest)
  | _ => true

/-- The unbroken runs of an ascending list, each as first number and count. -/
def runsOf : List Nat → List (Nat × Nat)
  | [] => []
  | a :: rest =>
    match runsOf rest with
    | (b, n) :: more => if b = a + 1 then (a, n + 1) :: more else (a, 1) :: (b, n) :: more
    | [] => [(a, 1)]

/-- An ascending list with a number put in its place, once. -/
def insertZone (g : Nat) : List Nat → List Nat
  | [] => [g]
  | x :: xs => if g < x then g :: x :: xs else if g = x then x :: xs else x :: insertZone g xs

/-! ## Due marks, the Send List, reports, counters -/

/-- The mark of a send that becomes due now: the place after every send already due (R102). -/
def Station.freshDue (st : Station) : Due := { place := st.nextPlace, tries := 0, pass := 0 }

/-- The station after a send took the next place in due order. -/
def Station.bump (st : Station) : Station := { st with nextPlace := st.nextPlace + 1 }

/-- Free entries of the Send List (R101). -/
def Station.sendsFree (st : Station) : Nat := sendListSize - st.sendList.length

/-- Places a loose send when an entry is free, and leaves it unsent otherwise (R101, R29, R34). -/
def Station.placeSend (st : Station) (destination : Address) (content : Frame) : Station :=
  if st.sendsFree = 0 then st
  else { st with sendList := st.sendList ++ [{ destination, content, due := st.freshDue }],
                 nextPlace := st.nextPlace + 1 }

/-- Makes a report in the event under way (R166). -/
def Station.report (st : Station) (b : ReportBody) : Station := { st with outbox := st.outbox ++ [b] }

/-- A 16-bit counter raised, staying at 65535 (R110, R143). -/
def raiseCounter (n by' : Nat) : Nat := min (n + by') counterTop

/-- The station with the link counters changed. -/
def Station.countLink (st : Station) (f : LinkCounters → LinkCounters) : Station :=
  { st with linkCounters := f st.linkCounters }

/-- One more receive error (R110). -/
def Station.receiveError (st : Station) : Station :=
  st.countLink fun c => { c with receiveErrors := raiseCounter c.receiveErrors 1 }

/-- One more foreign frame (R108, R110). -/
def Station.foreignFrame (st : Station) : Station :=
  st.countLink fun c => { c with foreignFrames := raiseCounter c.foreignFrames 1 }

/-! ## RELEASE due (R10, R11) -/

/-- The set of RELEASE due toward a side. -/
def Entry.releaseDue (e : Entry) : Side → Option ReleaseDue
  | .lower => e.releaseLower
  | .upper => e.releaseUpper

/-- The entry with the set of RELEASE due toward a side replaced. -/
def Entry.setReleaseDue (e : Entry) (d : Side) (r : Option ReleaseDue) : Entry :=
  match d with
  | .lower => { e with releaseLower := r }
  | .upper => { e with releaseUpper := r }

/-- The zones of RELEASE due toward a side. -/
def Entry.releaseZones (e : Entry) (d : Side) : List ZoneNo := ((e.releaseDue d).map (·.zones)).getD []

/-- Zones join the set of RELEASE due toward a side; a set already due keeps its place (R102), a new one takes the
next. -/
def Station.oweRelease (st : Station) (m : MoverId) (d : Side) (zones : List ZoneNo) : Station :=
  match st.entry? m, zones with
  | none, _ | _, [] => st
  | some e, zones =>
    let all := zones.foldr insertZone (e.releaseZones d)
    match e.releaseDue d with
    | some r => st.modifyEntry m fun e => e.setReleaseDue d (some { r with zones := all })
    | none => (st.modifyEntry m fun e => e.setReleaseDue d (some { zones := all, due := st.freshDue })).bump

/-! ## Remote holdings (R10) -/

/-- The entry with both lists of remote holdings filtered. -/
def Entry.filterRemote (e : Entry) (p : ZoneNo → Bool) : Entry :=
  { e with remoteLower := e.remoteLower.filter p, remoteUpper := e.remoteUpper.filter p }

/-- The entry with a zone added to the list toward a side, in order along the track. -/
def Entry.addRemote (e : Entry) (d : Side) (g : ZoneNo) : Entry :=
  match d with
  | .lower => { e with remoteLower := insertZone g e.remoteLower }
  | .upper => { e with remoteUpper := insertZone g e.remoteUpper }

/-- The remote holdings that lie on a side. -/
def Station.remoteOn (st : Station) (e : Entry) (d : Side) : List ZoneNo :=
  e.remote.filter fun g => st.sideOfZone g = d

end Sys2Proof.Machine
end

