-- ==== Sys2Proof/Machine/Coils.lean ====
section
/-! DEFINITION. The Coil Driver: assignment and preloads (R151 to R153), the PWM counter (R154), switch requests and the
shoot-through guard (R155), deadtime (R156). Switch outputs are brought up to date once at the end of each event and at
each coil clock (log entry 21). -/

namespace Sys2Proof.Machine

/-! ## Which coil drives which mover -/

/-- The position whose body the Coil Driver uses for an entry, if its coils can be assigned at all (R151): the setpoint
of a RESIDENT or HANDING entry not FAULTED, the shadow setpoint of a VISITOR with a valid shadow. -/
def Entry.coilPosition (e : Entry) : Option Position :=
  match e.state with
  | .stray => none
  | .visitor => e.shadow.bind fun w => if w.valid then some w.setpoint else none
  | .resident | .handing => if e.motion.isFaulted then none else some e.setpoint

/-- Coil k is assigned to the entry's mover (R151). -/
def Station.coilAssigned (st : Station) (e : Entry) (k : Nat) : Bool :=
  st.holds e.id k && e.coilPosition.any fun p => (bodyZones p).contains (st.globalZone k)

/-- The drive of a duty at a TOP (R153): polarity by its sign, compare |duty| · TOP / 1000 rounded down. -/
def driveOfDuty (duty : Int) (top : Nat) : CoilDrive :=
  .drive (if 0 < duty then .plus else if duty < 0 then .minus else .zero) (duty.natAbs * top / 1000)

/-- The duty of coil k for a demand at a position (R153): the demand when the zone's centre lies above the position, and
its negative otherwise. -/
def coilDuty (centre p : Position) (demand : Int) : Int := if p < centre then demand else -demand

/-- The coil unassigned: its assigned mover none, its preloaded and applied drives unassigned at once (R152). -/
def Coil.unassign (c : Coil) : Coil := { c with assigned := none, preloaded := .unassigned, applied := .unassigned }

/-- One coil at a recompute for an entry (R152). -/
def Station.recomputeCoil (st : Station) (e : Entry) (k : Nat) (c : Coil) : Coil :=
  if st.coilAssigned e k then
    { c with assigned := some e.id,
             preloaded := driveOfDuty (coilDuty (zoneCentre (st.globalZone k)) (e.coilPosition.getD 0) e.demand)
               st.conf.pwmTop }
  else if c.assigned = some e.id then c.unassign
  else c

/-- A recompute for a mover at a write of its demand or shadow (R152); a mover with no entry has no coil left. -/
def Station.recompute (st : Station) (m : MoverId) : Station :=
  { st with coils := match st.entry? m with
      | some e => st.coils.mapIdx (st.recomputeCoil e)
      | none => st.coils.map fun c => if c.assigned = some m then c.unassign else c }

/-- Unassigns coil k: zone k leaves HELD (R19, R152). -/
def Station.unassignCoil (st : Station) (k : Nat) : Station := { st with coils := st.coils.modify k Coil.unassign }

/-- A demand write (R12): the entry's demand, then the recompute for its mover. -/
def Station.writeDemand (st : Station) (m : MoverId) (demand : Int) : Station :=
  (st.modifyEntry m fun e => { e with demand := demand }).recompute m

/-! ## Requests and outputs -/

/-- Both switches of a leg requested on are both off (R155, the shoot-through guard). -/
def Switches.guarded (s : Switches) : Switches :=
  { ah := s.ah && !s.al, al := s.al && !s.ah, bh := s.bh && !s.bl, bl := s.bl && !s.bh }

/-- The pattern of an applied drive while ON; `below` says that the PWM counter is below the compare (R154, R155). -/
def CoilDrive.pattern (below : Nat → Bool) : CoilDrive → Switches
  | .unassigned => Switches.off
  | .drive .plus c => { ah := below c, al := !below c, bh := false, bl := true }
  | .drive .minus c => { ah := false, al := true, bh := below c, bl := !below c }
  | .drive .zero _ => { ah := false, al := true, bh := false, bl := true }

/-- The request for the switches of coil k (R155): all off before LOADING applied a record; the idle levels while the
drive is not ON; the pattern of the applied drive while ON, off for coils C to 15. -/
def Station.request (st : Station) (k : Nat) (c : Coil) : Switches :=
  match st.record with
  | none => Switches.off
  | some r =>
    (if st.drive ≠ .on then r.idle
     else if k < r.coils then c.applied.pattern fun compare => st.pwm.count < compare
     else Switches.off).guarded

/-- One leg under the deadtime (R156), as high then low: requests, outputs and clocks off. A request to turn off acts at
once; a request to turn on acts when the complement has been off for the deadtime. Answers the outputs and the clocks
off, both as high then low. -/
def legOutputs (deadtime : Nat) (reqH reqL outH outL : Bool) (offH offL : Nat) : (Bool × Bool) × (Nat × Nat) :=
  let stayH := outH && reqH
  let stayL := outL && reqL
  let offH := if outH && !reqH then 0 else offH
  let offL := if outL && !reqL then 0 else offL
  let newH := stayH || (reqH && !stayL && deadtime ≤ offL)
  let newL := stayL || (reqL && !stayH && deadtime ≤ offH)
  ((newH, newL), (if newH then 0 else offH, if newL then 0 else offL))

/-- The outputs of a coil brought up to its request, under a deadtime. -/
def Coil.follow (c : Coil) (deadtime : Nat) (q : Switches) : Coil :=
  let a := legOutputs deadtime q.ah q.al c.outputs.ah c.outputs.al c.offClocks.ah c.offClocks.al
  let b := legOutputs deadtime q.bh q.bl c.outputs.bh c.outputs.bl c.offClocks.bh c.offClocks.bl
  { c with outputs := { ah := a.1.1, al := a.1.2, bh := b.1.1, bl := b.1.2 },
           offClocks := { ah := a.2.1, al := a.2.2, bh := b.2.1, bl := b.2.2 } }

/-- The deadtime in force: the configured one while the drive is ON, none otherwise (R155, R156). -/
def Station.deadtimeNow (st : Station) : Nat := if st.drive = .on then st.conf.deadtime else 0

/-- Every switch output brought up to its request (R155, R156), at the end of an event or at a coil clock. -/
def Station.refreshOutputs (st : Station) : Station :=
  { st with coils := st.coils.mapIdx fun k c => c.follow st.deadtimeNow (st.request k c) }

/-! ## The coil clock -/

/-- The PWM counter one coil clock on (R154): up to TOP and back down to 0. -/
def Pwm.advance (p : Pwm) (top : Nat) : Pwm :=
  if p.up then { p with count := p.count + 1, up := p.count + 1 < top }
  else { p with count := p.count - 1, up := p.count - 1 = 0 }

/-- The counter's turn (R154): every coil's applied drive becomes its preloaded drive. -/
def Coil.turn (c : Coil) : Coil := { c with applied := c.preloaded }

/-- One more clock off for the switches that are off, staying at 255 (R156). -/
def Coil.clock (c : Coil) : Coil :=
  { c with offClocks :=
      { ah := if c.outputs.ah then 0 else min (c.offClocks.ah + 1) 255
        al := if c.outputs.al then 0 else min (c.offClocks.al + 1) 255
        bh := if c.outputs.bh then 0 else min (c.offClocks.bh + 1) 255
        bl := if c.outputs.bl then 0 else min (c.offClocks.bl + 1) 255 } }

/-- One coil clock (R154, R156): the counter moves, a reaching of 0 is its turn, and the outputs follow. Nothing happens
while the counter is stopped (R147). -/
def Station.coilClock (st : Station) : Station :=
  if st.pwm.running then
    let pwm := st.pwm.advance st.conf.pwmTop
    let coils := st.coils.map fun c => if pwm.count = 0 then c.clock.turn else c.clock
    ({ st with pwm := pwm, coils := coils } : Station).refreshOutputs
  else st

/-- Coil clocks pass until the clock at which `hit before after` holds, within `fuel` clocks and while `live` holds;
none when that clock does not come. -/
def Station.clocksUntil (hit : Station → Station → Bool) (live : Station → Bool) : Nat → Station → Option Station
  | 0, _ => none
  | n + 1, st =>
    let st' := st.coilClock
    if hit st st' then some st' else if live st' then st'.clocksUntil hit live n else none

/-- The coil's high switch in PWM with the counter below its compare; none without a PWM pattern (R155). -/
def Station.pwmRequest (st : Station) (k : Nat) : Option Bool :=
  match (st.coils[k]?).map Coil.applied with
  | some (CoilDrive.drive .plus c) | some (CoilDrive.drive .minus c) => some (st.pwm.count < c)
  | _ => none

/-- Between two clocks the counter crossed coil k's applied compare (R154). -/
def Station.comparePassed (k : Nat) (before after : Station) : Bool :=
  (before.coils[k]?).map Coil.applied = (after.coils[k]?).map Coil.applied &&
    before.pwmRequest k ≠ after.pwmRequest k

/-- One switch of a set. -/
def Switches.get (s : Switches) : SwitchName → Bool
  | .ah => s.ah
  | .al => s.al
  | .bh => s.bh
  | .bl => s.bl

/-- Switch of coil k: its request and its output. -/
def Station.switchState (st : Station) (k : Nat) (sw : SwitchName) : Bool × Bool :=
  match st.coils[k]? with
  | some c => ((st.request k c).get sw, c.outputs.get sw)
  | none => (false, false)

/-- The switch is requested on and waits for the deadtime of its complement (R156). -/
def Station.switchWaits (st : Station) (k : Nat) (sw : SwitchName) : Bool := st.switchState k sw = (true, false)

end Sys2Proof.Machine
end

