-- ==== Sys2Proof/Machine/Ops.lean ====
section
/-! DEFINITION. The shared operations: the Zone Arbiter (R19 to R37), the claimant's side (R39 to R43), side records
(R114 to R117), notices (R150), the end of a move (R57), entry into FAULTED (R61), the end of a handover without a take
(R79 to R81), and the tests that refuse MOVE, ABORT and CLEAR (R45, R58, R63). -/

namespace Sys2Proof.Machine

open Sys2Proof.Config

/-! ## Zones becoming free, and entries becoming free -/

/-- The zone leaves HELD for FREE: its holder and GRANT owed are cleared and its coil is unassigned (R19). Its wait list
is not examined here. -/
def Station.freeZone (st : Station) (k : Nat) : Station :=
  (st.modifyZone k fun z => { z with state := .free, grantOwed := none }).unassignCoil k

/-- The VISITOR's mover holds no own zone and has no claim in an own wait list (R15). -/
def Station.idleVisitor (st : Station) (m : MoverId) : Bool :=
  (st.entry? m).any (·.state = .visitor) && (st.holdings m).isEmpty && (st.claimedZones m).isEmpty

/-- Classes of a remote claim (R22). -/
inductive ClaimClass
  | entry
  | ordinary
  | conflict
deriving DecidableEq, Repr

/-- The class of a remote claim for mover `m` from neighbour `n` (R22). -/
def Station.claimClass (st : Station) (m : MoverId) (n : Address) (entryFlag : Bool) : ClaimClass :=
  match st.entry? m with
  | none => if entryFlag then .entry else .conflict
  | some e =>
    if e.state = .stray then if entryFlag then .entry else .conflict
    else if e.visitorOf n || e.handingTo n || e.lostTo n then .ordinary
    else .conflict

/-- Test 8 of R23 passed: the mover holds no own zone, or zone k lies directly below the first or directly above the
last of them. -/
def Station.keepsRun (st : Station) (m : MoverId) (k : Nat) : Bool :=
  match (st.holdings m).head?, (st.holdings m).getLast? with
  | some a, some b => k + 1 = a || k = b + 1
  | _, _ => true

/-- An entry claim for a mover with no entry while all 12 entries are in use (R22, R24). -/
def Station.needsEntry (st : Station) (m : MoverId) (cls : ClaimClass) : Bool :=
  cls = .entry && (st.entry? m).isNone && st.tableFull

/-- The VISITOR entry that a grant of an entry claim makes, new or from the STRAY (R13, R24). -/
def Station.makeVisitor (st : Station) (m : MoverId) (n : Address) : Station :=
  st.putEntry { Entry.blank m .visitor with owner := some n, actual := (st.entry? m).bind (·.actual) }

/-- Zone k becomes HELD by the mover with that holder station; a neighbour is owed a GRANT (R24, R29). An entry claim
makes the VISITOR. -/
def Station.grantZone (st : Station) (k : Nat) (m : MoverId) (n : Address) (cls : ClaimClass) : Station :=
  let st := if n = st.own then st.modifyZone k fun z => { z with state := .held m n, grantOwed := none }
    else (st.modifyZone k fun z => { z with state := .held m n, grantOwed := some st.freshDue }).bump
  if cls = .entry then st.makeVisitor m n else st

/-- A denial handed to the Motion Engine (R54): the claim ends and the zone is recorded as denied, with the reason. -/
def Station.denyClaim (st : Station) (m : MoverId) (g : ZoneNo) (r : DenialReason) : Station :=
  st.modifyEntry m fun e => { e with claim := none, claimDue := none, denied := some (g, r) }

/-- What the examination makes of a head (R29). -/
inductive HeadVerdict
  | stay
  | granted (cls : ClaimClass)
  | denied (r : DenialReason)
deriving DecidableEq, Repr

/-- The head claim of FREE zone k decided again on the table as it stands (R29). -/
def Station.headVerdict (st : Station) (k : Nat) (c : WaitClaim) : HeadVerdict :=
  let cls := if c.station = st.own then .ordinary else st.claimClass c.mover c.station c.entryFlag
  if st.drive ≠ .on then .denied .drive
  else if cls = .conflict || !st.keepsRun c.mover k then .denied .state
  else if st.needsEntry c.mover cls then .stay
  else .granted cls

/-- The station with the head of zone k's wait list gone (R21). -/
def Station.popHead (st : Station) (k : Nat) : Station := st.modifyZone k fun z => { z with waiting := z.waiting.tail }

/-- The head granted and removed (R29); a local claim's entry is left with no outstanding claim (R26). -/
def Station.grantHead (st : Station) (k : Nat) (c : WaitClaim) (cls : ClaimClass) : Station :=
  let st := (st.popHead k).grantZone k c.mover c.station cls
  if c.station = st.own then st.modifyEntry c.mover fun e => { e with claim := none } else st

/-- The denial of a removed claim made known: through the Send List to a remote claimant while an entry is free there,
to the Motion Engine for a local one (R29, R34, R36). The rules say nothing of a local claim whose mover is HANDING: its
entry records the denied zone and keeps the travelled claim (log entry 43). -/
def Station.tellDenied (st : Station) (k : Nat) (c : WaitClaim) (r : DenialReason) : Station :=
  if c.station = st.own then st.denyClaim c.mover (st.globalZone k) r
  else st.placeSend c.station (.denied c.mover (st.globalZone k) r)

/-- The head of zone k's wait list when the zone is FREE (R27). -/
def Station.freeHead? (st : Station) (k : Nat) : Option WaitClaim :=
  (st.zone? k).bind fun z => if z.state = .free then z.waiting.head? else none

/-- The zones whose head is an entry claim, always a neighbour's (R22), that waited for a table entry, in ascending local
index (R28). -/
def Station.waitingZones (st : Station) : List Nat :=
  st.localZones.filter fun k => (st.freeHead? k).any fun c =>
    c.station ≠ st.own && c.entryFlag && (st.entry? c.mover).isNone

/-- Claims in all wait lists. -/
def Station.claimTotal (st : Station) : Nat := (st.zones.map (·.waiting.length)).sum

/-- A look at one wait list: its zone, and whether the list is only offered a table entry that became free (R28). -/
structure Look where
  zone : Nat
  offered : Bool
deriving DecidableEq, Repr

/-- The head to examine at a look: that of the zone when it is FREE (R27), and at an offer only while a table entry is
still free (R28). -/
def Station.lookedAt (st : Station) (l : Look) : Option WaitClaim :=
  if l.offered && st.tableFull then none else st.freeHead? l.zone

/-- The looks that offer a table entry: one at each list whose head waits for one as the offer begins (R28; log entry
42). -/
def Station.offers (st : Station) : List Look := st.waitingZones.map fun k => ⟨k, true⟩

/-- Examination at the looks listed, in order (R27, R29): a grant or a stay ends a look, a denial removes its head and
the next one is examined; a VISITOR that a denial leaves without zone or claim is freed, also within a purge and whoever
owns it (log entry 47), and its entry is offered at once to the lists that wait for one (R15, R28). `fuel` bounds the
heads examined. -/
def Station.examineLoop : Nat → List Look → Station → Station
  | 0, _, st => st
  | _, [], st => st
  | fuel + 1, l :: ls, st =>
    match st.lookedAt l with
    | none => Station.examineLoop fuel ls st
    | some c =>
      match st.headVerdict l.zone c with
      | .stay => Station.examineLoop fuel ls st
      | .granted cls => Station.examineLoop fuel ls (st.grantHead l.zone c cls)
      | .denied r =>
        let st := (st.popHead l.zone).tellDenied l.zone c r
        let behind := ⟨l.zone, false⟩ :: ls
        if st.idleVisitor c.mover then
          let st := st.eraseEntry c.mover
          Station.examineLoop fuel (st.offers ++ behind) st
        else Station.examineLoop fuel behind st

/-- Examination with fuel enough for every head (each denial removes a claim and adds at most one look at each zone). -/
def Station.examineAll (st : Station) (ls : List Look) : Station :=
  Station.examineLoop ((st.claimTotal + 1) * (st.zones.length + 2) + ls.length) ls st

/-- Examination of the lists of the zones listed, in order (R27). -/
def Station.examine (st : Station) (ks : List Nat) : Station := st.examineAll (ks.map fun k => ⟨k, false⟩)

/-- A table entry became free: it is offered, in ascending local index, to the lists whose head waits for one, and to the
next such list only while an entry is still free (R5, R28; log entry 42). -/
def Station.offerEntry (st : Station) : Station := st.examineAll st.offers

/-- The mover's entry freed and offered (R15, R28). -/
def Station.freeEntry (st : Station) (m : MoverId) : Station := (st.eraseEntry m).offerEntry

/-- The test of R15 made for a mover: a VISITOR that holds and claims nothing is freed. -/
def Station.testVisitor (st : Station) (m : MoverId) : Station := if st.idleVisitor m then st.freeEntry m else st

/-- A held zone released: it becomes FREE and its wait list is examined (R19, R27). -/
def Station.releaseZone (st : Station) (k : Nat) : Station := (st.freeZone k).examine [k]

/-- Own zones of a mover released in the order given (R30, R31). -/
def Station.releaseOwn (st : Station) (m : MoverId) (ks : List Nat) : Station :=
  ks.foldl (fun st k => if st.holds m k then st.releaseZone k else st) st

/-- A mover's claim gone from zone k's list, which is not examined here (R21). -/
def Station.unlistClaim (st : Station) (k : Nat) (m : MoverId) : Station :=
  st.modifyZone k fun z => { z with waiting := z.waiting.filter (·.mover ≠ m) }

/-- A mover's claim withdrawn from zone k's list (R32): if it was the head and the zone is FREE, the new head is
examined. -/
def Station.dropClaim (st : Station) (k : Nat) (m : MoverId) : Station :=
  if (st.freeHead? k).any (·.mover = m) then (st.unlistClaim k m).examine [k] else st.unlistClaim k m

/-- A mover's claim removed from zone k's list, and a VISITOR left with nothing freed (R32). -/
def Station.removeClaim (st : Station) (k : Nat) (m : MoverId) : Station := (st.dropClaim k m).testVisitor m

/-- Every claim of every wait list, from the head down in ascending local index, with its zone. -/
def Station.allClaims (st : Station) : List (Nat × WaitClaim) :=
  st.localZones.flatMap fun k => (((st.zone? k).map Zone.waiting).getD []).map fun c => (k, c)

/-- Every remote claim removed and denied DRIVE when the drive leaves ON, and the VISITORs then tested in the same order
(R34; log entry 41). Local claims stay, the one that comes to a FREE zone's head too: nothing is examined. -/
def Station.denyRemoteClaims (st : Station) : Station :=
  let claims := st.allClaims.filter fun p => p.2.station ≠ st.own
  let emptied : Station :=
    { st with zones := st.zones.map fun (z : Zone) => { z with waiting := z.waiting.filter (·.station = st.own) } }
  let told := claims.foldl (fun st p => st.tellDenied p.1 p.2 .drive) emptied
  claims.foldl (fun st p => st.testVisitor p.2.mover) told

/-! ## A claim arrives (R23, R24) -/

/-- What the tests of R23 make of a claim; `isNew` is test 9. -/
inductive ClaimVerdict
  | denied (r : DenialReason)
  | grantAgain
  | queuedAgain (place : Nat)
  | isNew
deriving DecidableEq, Repr

/-- The place of a mover's claim in zone k's wait list, 1 to 4 (R21). -/
def Station.placeOf (st : Station) (m : MoverId) (k : Nat) : Option Nat :=
  (st.zone? k).bind fun z => (z.waiting.findIdx? (·.mover = m)).map (· + 1)

/-- The tests of R23, in order; `conflict` is test 3, which a local claim always passes. -/
def Station.claimVerdict (st : Station) (m : MoverId) (g : ZoneNo) (conflict : Bool) : ClaimVerdict :=
  match st.localIndex g with
  | none => .denied .outOfSegment
  | some k =>
    if st.mode ≠ .online then .denied .state
    else if conflict then .denied .state
    else if st.holds m k then .grantAgain
    else match st.placeOf m k with
      | some place => .queuedAgain place
      | none =>
        if st.drive ≠ .on then .denied .drive
        else if (st.zone? k).any (·.state = .blocked) then .denied .blocked
        else if !st.keepsRun m k then .denied .state
        else .isNew

/-- What R24 makes of a new claim. -/
inductive Admission
  | granted
  | queued
  | deferred
deriving DecidableEq, Repr

/-- How a new claim on zone k fares (R24). -/
def Station.admission (st : Station) (k : Nat) (m : MoverId) (cls : ClaimClass) : Admission :=
  match st.zone? k with
  | none => .deferred
  | some z =>
    if z.state = .free ∧ z.waiting = [] ∧ ¬ st.needsEntry m cls then .granted
    else if z.waiting.length < waitListSize then .queued
    else .deferred

/-- A claim joins the tail of zone k's wait list; a remote claimant is owed a QUEUED (R21, R24). -/
def Station.queueClaim (st : Station) (k : Nat) (m : MoverId) (n : Address) (cls : ClaimClass) : Station :=
  let remote := n ≠ st.own
  let claim := { mover := m, station := n, entryFlag := cls = .entry, queuedOwed := if remote then some st.freshDue else none }
  let st' := st.modifyZone k fun z => { z with waiting := z.waiting ++ [claim] }
  if remote then st'.bump else st'

/-- A new claim decided by R24 and carried out. -/
def Station.admitClaim (st : Station) (k : Nat) (m : MoverId) (n : Address) (cls : ClaimClass) : Station :=
  match st.admission k m cls with
  | .granted => st.grantZone k m n cls
  | .queued => st.queueClaim k m n cls
  | .deferred => st

/-- An outstanding local claim: in phase QUEUED (R10). -/
def Claim.localQueued (g : ZoneNo) : Claim := { zone := g, phase := .queued, sends := 0, periods := 0, place := 0 }

/-- A local claim made by the Motion Engine, with its outcome on the entry (R26). -/
def Station.claimOwn (st : Station) (m : MoverId) (g : ZoneNo) : Station :=
  match st.claimVerdict m g false, st.localIndex g with
  | .denied r, _ => st.denyClaim m g r
  | .grantAgain, _ => st
  | .queuedAgain _, _ => st.modifyEntry m fun e => { e with claim := some (.localQueued g) }
  | .isNew, none => st
  | .isNew, some k =>
    match st.admission k m .ordinary with
    | .queued => (st.admitClaim k m st.own .ordinary).modifyEntry m fun e => { e with claim := some (.localQueued g) }
    | .granted | .deferred => st.admitClaim k m st.own .ordinary

/-! ## The claimant's side (R39 to R43) -/

/-- A remote claim is raised toward a neighbour segment, or ends at once as DENIED(CLOSED) (R39). -/
def Station.claimRemote (st : Station) (m : MoverId) (g : ZoneNo) : Station :=
  if st.sideOpen (st.sideOfZone g) then
    (st.modifyEntry m fun e =>
      { e with claim := some { zone := g, phase := .toSend, sends := 0, periods := 0, place := 0 },
               claimDue := some st.freshDue }).bump
  else st.denyClaim m g .closed

/-- CANCEL due is set for a zone; it holds one zone, so one already set stays (R43). -/
def Station.oweCancel (st : Station) (m : MoverId) (g : ZoneNo) : Station :=
  match st.entry? m with
  | none => st
  | some e =>
    if e.cancelDue.isSome then st
    else (st.modifyEntry m fun e => { e with cancelDue := some (g, st.freshDue) }).bump

/-- An attempt of the mover's CLAIM for that zone is under way (R43). -/
def Station.claimUnderWay (st : Station) (m : MoverId) (g : ZoneNo) : Bool :=
  st.attempt.any fun a => match a.content with
    | .claim m' g' _ => m' = m && g' = g
    | _ => false

/-- The outstanding claim is given up (R32, R43): a local one is withdrawn from its list; a remote one ends, with CANCEL
due when the neighbour may have seen it. -/
def Station.giveUpClaim (st : Station) (m : MoverId) : Station :=
  match (st.entry? m).bind (·.claim) with
  | none => st
  | some c =>
    let ended := st.modifyEntry m fun e => { e with claim := none, claimDue := none }
    match st.localIndex c.zone with
    | some k => ended.removeClaim k m
    | none => if 1 ≤ c.sends || st.claimUnderWay m c.zone then ended.oweCancel m c.zone else ended

/-! ## Holdings and the end of a move (R56, R57) -/

/-- Remote zones leave the remote holdings for the set of RELEASE due toward their side (R10). Where zones of both neighbours
go at one event, the RELEASE toward the lower one takes the earlier place in due order: the rules give no order there (log
entry 41). -/
def Station.releaseRemote (st : Station) (m : MoverId) (gs : List ZoneNo) : Station :=
  let st := st.modifyEntry m fun e => e.filterRemote fun g => !gs.contains g
  (st.oweRelease m .lower (gs.filter fun g => st.sideOfZone g = .lower)).oweRelease m .upper
    (gs.filter fun g => st.sideOfZone g = .upper)

/-- Every held zone that the body at `p` does not touch is released (R57, R63, R79): own zones in ascending order, then
the remote ones (log entry 41). -/
def Station.releaseUntouched (st : Station) (m : MoverId) (p : Position) : Station :=
  let body := bodyZones p
  let remote := (((st.entry? m).map (·.remote)).getD []).filter fun g => !body.contains g
  (st.releaseOwn m ((st.holdings m).filter fun k => !body.contains (st.globalZone k))).releaseRemote m remote

/-- The end of the active move (R57), the active move absent afterward. A HANDING entry holds no claim and makes no
release. -/
def Station.endMove (st : Station) (m : MoverId) : Station :=
  match st.entry? m with
  | none => st
  | some e =>
    let released := if e.state = .resident then (st.giveUpClaim m).releaseUntouched m e.setpoint else st
    released.modifyEntry m fun e =>
      { e with velocity := 0, zoneWaitCount := 0, denied := none, active := none }

/-! ## Faults (R61) -/

/-- The entry with the fields that FAULTED clears (R61, R8). -/
def Entry.fault (e : Entry) (cause : FaultCause) : Entry :=
  { e with motion := .faulted cause, velocity := 0, active := none, queue := [], dwellRemaining := 0,
           zoneWaitCount := 0, denied := none, flushedAtStop := 0,
           actual := if cause = .lost then none else e.actual }

/-- Move records that a fault drops, counting the active move (R61). -/
def Entry.records (e : Entry) : Nat := e.active.toList.length + e.queue.length

/-- The entry `e` is faulted once the work of its block is done (R61): its FAULTED fields, demand 0 with its coils
unassigned, and the report. -/
def Station.faulted (st : Station) (e : Entry) (cause : FaultCause) (refusal : Option HandoverRefusal) : Station :=
  ((st.modifyEntry e.id fun e => e.fault cause).writeDemand e.id 0).report (.moverFault e.id cause e.records refusal)

/-- An entry enters FAULTED (R61); one already FAULTED keeps its first cause, with no report (R7). The end of a RESIDENT's
active move gives the claim up and releases the zones its body does not touch (R57). -/
def Station.enterFault (st : Station) (m : MoverId) (cause : FaultCause) (refusal : Option HandoverRefusal) : Station :=
  match st.entry? m with
  | none => st
  | some e =>
    if e.motion.isFaulted then st
    else
      (if e.state ≠ .resident then st
        else if e.active.isSome then st.endMove m
        else st.giveUpClaim m).faulted e cause refusal

/-- Each listed mover's entry that passes the test enters FAULTED, in the order given. -/
def Station.faultEach (st : Station) (ms : List MoverId) (p : Entry → Bool) (cause : FaultCause) : Station :=
  ms.foldl (fun st m => if (st.entry? m).any p then st.enterFault m cause none else st) st

/-- A handover ends without a take (R79, R80, R81): the entry is RESIDENT with its travelled claim, enters FAULTED unless it
was FAULTED already, gives the claim up and releases what its body does not touch. It has no previous owner (R71; log entry
40). -/
def Station.endHandover (st : Station) (m : MoverId) (cause : FaultCause) (refusal : Option HandoverRefusal) : Station :=
  match st.entry? m with
  | none => st
  | some e =>
    match e.handover with
    | none => st
    | some h =>
      let back := st.modifyEntry m fun e =>
        { e with state := .resident, claim := h.travelled, handover := none,
                 previousOwner := none }
      let ended := if e.motion.isFaulted then back.giveUpClaim m else back.enterFault m cause refusal
      let released := ended.releaseUntouched m e.setpoint
      if cause = .handoverLost && !e.motion.isFaulted then
        released.modifyEntry m fun e => { e with lostTarget := some h.target }
      else released

/-! ## Sides, PRESENT and NOTICE -/

/-- A side becomes CLOSED with a reason (R114, R117): reported at each change into CLOSED or of its reason; an EDGE side
never changes state. -/
def Station.closeSide (st : Station) (d : Side) (r : ClosedReason) : Station :=
  let s := st.side d
  if s.state = .edge || s.state = .closed r then st
  else (st.setSide d { s with state := .closed r, probeCount := 0 }).report (.sideClosed (st.neighbourAt d) r)

/-- A side becomes OPEN (R114). -/
def Station.openSide (st : Station) (d : Side) : Station :=
  let s := st.side d
  if s.state = .edge || s.state = .opened then st
  else (st.setSide d { s with state := .opened, openedSinceLoading := true }).report (.sideOpen (st.neighbourAt d))

/-- The attempt under way is marked raised again when it serves the mark at that place (R104). -/
def Station.raisedAgain (st : Station) (place : Nat) : Station :=
  { st with attempt := st.attempt.map fun a => if a.place = place then { a with raisedAgain := true } else a }

/-- The station's own description and state, as a PRESENT carries them (R116). -/
def Station.ownPresent (st : Station) (fresh answerWanted : Bool) : Present :=
  { origin := st.conf.origin, coils := st.conf.coils, lower := st.conf.lower, upper := st.conf.upper, fresh,
    answerWanted, drive := st.drive }

/-- The content of the directed PRESENT of a side (R117). -/
def Station.directedPresent (st : Station) (d : Side) (answerWanted : Bool) : Frame :=
  .present (st.ownPresent (!(st.side d).openedSinceLoading) answerWanted)

/-- PRESENT due is set; one already due keeps its place, its answer-wanted flag set if either reason wants an answer
(R117). Raised during its attempt with content that has changed, it is marked raised again (R104). -/
def Station.owePresent (st : Station) (d : Side) (wanted : Bool) : Station :=
  let s := st.side d
  match s.presentDue with
  | none => (st.setSide d { s with presentDue := some (wanted, st.freshDue) }).bump
  | some (w, due) =>
    let st := st.setSide d { s with presentDue := some (w || wanted, due) }
    if st.attempt.any fun a => a.place = due.place && a.content ≠ st.directedPresent d (w || wanted) then
      st.raisedAgain due.place
    else st

/-- NOTICE due is set by a change of the drive state (R150); one already due keeps its place (R104). -/
def Station.oweNotice (st : Station) : Station :=
  match st.noticeDue with
  | none => ({ st with noticeDue := some st.freshDue } : Station).bump
  | some due => st.raisedAgain due.place

/-- The drive state of the station changed (R147, R150). -/
def Station.setDrive (st : Station) (d : DriveState) : Station := ({ st with drive := d } : Station).oweNotice

/-- The station becomes ONLINE at the end of the join window (R115): each UNHEARD side is CLOSED with reason LOST, the
lower one first (log entry 41), and JOINED is reported. -/
def Station.becomeOnline (st : Station) : Station :=
  let close := fun (st : Station) d => if (st.side d).state = .unheard then st.closeSide d .lost else st
  (close (close { st with mode := .online } .lower) .upper).report .joined

/-! ## MOVE, ABORT and CLEAR on a RESIDENT entry -/

/-- Why a RESIDENT entry refuses a MOVE, if it does (R45). -/
def moveRefusal (e : Entry) : Option RefuseReason :=
  if e.motion.isFaulted then some .faulted
  else if e.motion = .stopping then some .stopping
  else if moveQueueSize ≤ e.queue.length then some .queueFull
  else none

/-- Why a RESIDENT entry refuses an ABORT, if it does (R58). -/
def abortRefusal (e : Entry) : Option RefuseReason :=
  if e.motion.isFaulted then some .faulted else if e.motion = .stopping then some .stopping else none

/-- The zone is held for the mover, as an own zone whose holder is the mover or as a zone of its remote holdings (R48,
R63). -/
def Station.heldZone (st : Station) (e : Entry) (g : ZoneNo) : Bool :=
  match st.localIndex g with
  | some k => st.holds e.id k
  | none => e.remote.contains g

/-- Every zone that the body at `p` touches is held for the mover (R48, R63). -/
def Station.bodyHeld (st : Station) (e : Entry) (p : Position) : Bool := (bodyZones p).all (st.heldZone e)

/-- Why a RESIDENT entry refuses a CLEAR, if it does (R63). -/
def Station.clearRefusal (st : Station) (e : Entry) : Option RefuseReason :=
  if !e.motion.isFaulted then some .badState
  else match e.actual with
    | none => some .drift
    | some p => if st.bodyHeld e p then none else some .drift

/-- A MOVE applied: the record joins the tail of the queue (R45). -/
def Station.applyMove (st : Station) (m : MoverId) (r : MoveRecord) : Station :=
  st.modifyEntry m fun e => { e with queue := e.queue ++ [r] }

/-- An ABORT applied, by motion state (R58); each clears the denied zone (R54). -/
def Station.applyAbort (st : Station) (m : MoverId) : Station :=
  match st.entry? m with
  | none => st
  | some e =>
    let flushed := e.queue.length
    match e.motion with
    | .moving =>
      ((st.modifyEntry m fun e => { e with queue := [] }).giveUpClaim m).modifyEntry m fun e =>
        { e with motion := .stopping, denied := none, flushedAtStop := flushed }
    | .zoneWait | .dwell =>
      (((st.modifyEntry m fun e => { e with queue := [] }).endMove m).modifyEntry m fun e =>
        { e with motion := .idle, dwellRemaining := 0 }).report (.moveAborted m (e.active.map (·.tag)) flushed)
    | .idle =>
      let cleared := st.modifyEntry m fun e => { e with queue := [], denied := none }
      if 1 ≤ flushed then cleared.report (.moveAborted m none flushed) else cleared
    | .stopping | .faulted _ => st

/-- A CLEAR applied: the entry is IDLE at its actual position, a claim taken with a FAULTED entry is given up (R43; log
entry 49), and what the new body does not touch is released (R63). -/
def Station.applyClear (st : Station) (m : MoverId) : Station :=
  match (st.entry? m).bind (·.actual) with
  | none => st
  | some p =>
    ((st.modifyEntry m fun e =>
      { e with setpoint := p, motion := .idle, velocity := 0, followCount := 0, lossCount := 0,
               lostTarget := none }).giveUpClaim m).releaseUntouched m p

/-- The refusal of an order's kind on a RESIDENT entry. -/
def Station.orderRefusal (st : Station) (e : Entry) : OrderKind → Option RefuseReason
  | .move _ => moveRefusal e
  | .abort => abortRefusal e
  | .clear => st.clearRefusal e

/-- An order's kind applied to a RESIDENT entry that does not refuse it. -/
def Station.applyKind (st : Station) (m : MoverId) : OrderKind → Station
  | .move r => st.applyMove m r
  | .abort => st.applyAbort m
  | .clear => st.applyClear m

/-- The order applied where its rule does not refuse it (R127). -/
def Station.applyOrder (st : Station) (e : Entry) (k : OrderKind) : Station :=
  if (st.orderRefusal e k).isNone then st.applyKind e.id k else st

/-- The result an ORDER_REPLY carries for the local outcome on a RESIDENT entry (R128). -/
def orderResultOf : Option RefuseReason → OrderResult
  | none => .accepted
  | some .queueFull => .queueFull
  | some .faulted => .faulted
  | some .stopping => .stopping
  | some .badState => .badState
  | some _ => .drift

end Sys2Proof.Machine
end

