-- ==== Sys2Proof/Machine/Sends.lean ====
section
/-! DEFINITION. Due sends as the Transmit Scheduler sees them (R97 to R104): all marks of the station, eligibility, the
choice, and the content read at the start of an attempt. -/

namespace Sys2Proof.Machine

/-- A due send: the mark that owes it, its destination, its class and its mark (R99). -/
structure Send where
  ref : SendRef
  destination : Address
  priority : Nat
  due : Due
deriving DecidableEq, Repr

/-! ## Content read at the start of an attempt (R99, R104) -/

/-- A run of zones as first zone and count. -/
def runOf (zones : List ZoneNo) : ZoneNo × Nat := (zones.head?.getD 0, zones.length)

/-- The content of a HANDOVER as the entry stands (R69). -/
def Station.handoverContent (st : Station) (e : Entry) (h : Handover) : HandoverContent :=
  { mover := e.id, motion := e.motion, setpoint := e.setpoint, velocity := e.velocity,
    dwellRemaining := e.dwellRemaining, zoneWaitCount := min e.zoneWaitCount 65535,
    claim := h.travelled.map fun c => { zone := c.zone, phase := c.phase, sends := c.sends, periods := c.periods },
    receiverRun := runOf (e.remote.filter fun g => st.sideOfAddress h.target = some (st.sideOfZone g)),
    senderRun := runOf ((st.holdings e.id).map st.globalZone),
    denied := e.denied, active := e.active, queue := e.queue, flushedAtStop := e.flushedAtStop }

/-- The frame a mark sends now, if the mark stands (R99). -/
def Station.frameOf (st : Station) (ref : SendRef) (place : Nat) : Option Frame :=
  match ref with
  | .claim m => do
    let e ← st.entry? m
    let c ← e.claim
    return .claim m c.zone (st.remoteOn e (st.sideOfZone c.zone)).isEmpty
  | .cancel m => do
    let e ← st.entry? m
    let (g, _) ← e.cancelDue
    return .cancel m g
  | .release m d => do
    let e ← st.entry? m
    let (f, n) ← (runsOf (e.releaseZones d)).head?
    return .release m f (min n 16)
  | .track m => (st.entry? m).map fun e => .track m e.setpoint e.velocity e.demand
  | .handover m => do
    let e ← st.entry? m
    let h ← e.handover
    return .handover (st.handoverContent e h)
  | .taken m => some (.taken m)
  | .grant k =>
    match (st.zone? k).map Zone.state with
    | some (.held m _) => some (.grant m (st.globalZone k))
    | _ => none
  | .queued k m => (st.placeOf m k).map fun p => .queued m (st.globalZone k) p
  | .present d => (st.side d).presentDue.map fun p => st.directedPresent d p.1
  | .notice => some (.notice st.drive)
  | .joinPresent => some (.present (st.ownPresent true true))
  | .order t => (st.orders.find? (·.tag = t)).map fun o => .order t o.mover o.kind
  | .loose => (st.sendList.find? (·.due.place = place)).map (·.content)

/-! ## All marks -/

/-- The due sends of an entry (R11). -/
def Station.entrySends (st : Station) (e : Entry) : List Send :=
  let toZone := fun g => st.neighbourAt (st.sideOfZone g)
  (e.claimDue.toList.flatMap fun d => e.claim.toList.map fun c => ⟨.claim e.id, toZone c.zone, 2, d⟩) ++
  (e.cancelDue.toList.map fun p => ⟨.cancel e.id, toZone p.1, 2, p.2⟩) ++
  (e.releaseLower.toList.map fun r => ⟨.release e.id .lower, st.neighbourAt .lower, 2, r.due⟩) ++
  (e.releaseUpper.toList.map fun r => ⟨.release e.id .upper, st.neighbourAt .upper, 2, r.due⟩) ++
  (e.trackDue.toList.map fun p => ⟨.track e.id, st.neighbourAt p.1, 0, p.2⟩) ++
  (e.handover.toList.flatMap fun h => match h.phase with
    | .ready d => [⟨.handover e.id, h.target, 1, d⟩]
    | .awaiting => []) ++
  (e.takenDue.toList.map fun p => ⟨.taken e.id, p.1, 1, p.2⟩)

/-- The due sends of zone k: GRANT owed and QUEUED owed (R25). -/
def zoneSends (k : Nat) (z : Zone) : List Send :=
  (match z.state, z.grantOwed with
    | .held _ n, some d => [⟨.grant k, n, 2, d⟩]
    | _, _ => []) ++
  z.waiting.flatMap fun c => c.queuedOwed.toList.map fun d => ⟨.queued k c.mover, c.station, 2, d⟩

/-- Every due send of the station (R99). -/
def Station.allSends (st : Station) : List Send :=
  st.entries.flatMap st.entrySends ++
  (st.zones.mapIdx zoneSends).flatten ++
  (st.lowerSide.presentDue.toList.map fun p => ⟨.present .lower, st.neighbourAt .lower, 3, p.2⟩) ++
  (st.upperSide.presentDue.toList.map fun p => ⟨.present .upper, st.neighbourAt .upper, 3, p.2⟩) ++
  (st.noticeDue.toList.map fun d => ⟨.notice, 63, 0, d⟩) ++
  (st.joinPresentDue.toList.map fun d => ⟨.joinPresent, 63, 3, d⟩) ++
  (st.orders.flatMap fun o => o.due.toList.map fun d => ⟨.order o.tag, 63, 3, d⟩) ++
  st.sendList.map fun l => ⟨.loose, l.destination, l.content.priority, l.due⟩

/-- The mark at a place still stands (R98, R104). -/
def Station.markStands (st : Station) (place : Nat) : Bool := st.allSends.any (·.due.place = place)

/-- The send is a directed PRESENT, which is always eligible (R100). -/
def SendRef.isPresent : SendRef → Bool
  | .present _ => true
  | _ => false

/-- The Transmit Scheduler may choose the send (R100): one to a configured neighbour is held while that side is not
OPEN, except a directed PRESENT. -/
def Station.eligible (st : Station) (s : Send) : Bool :=
  s.ref.isPresent || match st.sideOfAddress s.destination with
    | some d => st.sideOpen d
    | none => true

/-- The send that stands first in due order. -/
def firstInOrder : List Send → Option Send
  | [] => none
  | s :: rest =>
    match firstInOrder rest with
    | none => some s
    | some t => if t.due.place < s.due.place then some t else some s

/-- The lowest class present. -/
def lowestClass (sends : List Send) : Nat := sends.foldl (fun c s => min c s.priority) 3

/-- The choice among the eligible sends (R103). -/
def chooseSend (sends : List Send) : Option Send :=
  match firstInOrder (sends.filter (·.due.pass = 8)) with
  | some s => some s
  | none => firstInOrder (sends.filter (·.priority = lowestClass sends))

/-! ## Marks changed by place -/

/-- An entry with every mark changed. -/
def Entry.mapDues (e : Entry) (f : Due → Due) : Entry :=
  { e with
    claimDue := e.claimDue.map f
    cancelDue := e.cancelDue.map fun p => (p.1, f p.2)
    releaseLower := e.releaseLower.map fun r => { r with due := f r.due }
    releaseUpper := e.releaseUpper.map fun r => { r with due := f r.due }
    trackDue := e.trackDue.map fun p => (p.1, f p.2)
    takenDue := e.takenDue.map fun p => (p.1, f p.2)
    handover := e.handover.map fun h => { h with phase := match h.phase with
      | .ready d => .ready (f d)
      | .awaiting => .awaiting } }

/-- A zone entry with every mark changed. -/
def Zone.mapDues (z : Zone) (f : Due → Due) : Zone :=
  { z with grantOwed := z.grantOwed.map f,
           waiting := z.waiting.map fun c => { c with queuedOwed := c.queuedOwed.map f } }

/-- A side record with its mark changed. -/
def SideRecord.mapDues (r : SideRecord) (f : Due → Due) : SideRecord :=
  { r with presentDue := r.presentDue.map fun p => (p.1, f p.2) }

/-- The station with every mark changed. -/
def Station.mapDues (st : Station) (f : Due → Due) : Station :=
  { st with
    entries := st.entries.map fun e => e.mapDues f
    zones := st.zones.map fun z => z.mapDues f
    lowerSide := st.lowerSide.mapDues f
    upperSide := st.upperSide.mapDues f
    noticeDue := st.noticeDue.map f
    joinPresentDue := st.joinPresentDue.map f
    orders := st.orders.map fun o => { o with due := o.due.map f }
    sendList := st.sendList.map fun l => { l with due := f l.due } }

/-- The tries made of the mark at a place set (R96). -/
def Station.setTries (st : Station) (place tries : Nat) : Station :=
  st.mapDues fun d => if d.place = place then { d with tries := tries } else d

/-- The pass counts after the chosen send completed contention (R103): its own 0, every other eligible one raised. -/
def Station.passOver (st : Station) (chosen : Nat) : Station :=
  let eligible := (st.allSends.filter st.eligible).map (·.due.place)
  st.mapDues fun d =>
    if d.place = chosen then { d with pass := 0 }
    else if eligible.contains d.place then { d with pass := min (d.pass + 1) 8 }
    else d

/-- The mark of a send cleared. -/
def Station.clearMark (st : Station) (ref : SendRef) (place : Nat) : Station :=
  match ref with
  | .claim m => st.modifyEntry m fun e => { e with claimDue := none }
  | .cancel m => st.modifyEntry m fun e => { e with cancelDue := none }
  | .release m d => st.modifyEntry m fun e => e.setReleaseDue d none
  | .track m => st.modifyEntry m fun e => { e with trackDue := none }
  | .handover m => st.modifyEntry m fun e => { e with handover := e.handover.map fun h => { h with phase := .awaiting } }
  | .taken m => st.modifyEntry m fun e => { e with takenDue := none }
  | .grant k => st.modifyZone k fun z => { z with grantOwed := none }
  | .queued k m => st.modifyZone k fun z =>
      { z with waiting := z.waiting.map fun c => if c.mover = m then { c with queuedOwed := none } else c }
  | .present d => st.setSide d { st.side d with presentDue := none }
  | .notice => { st with noticeDue := none }
  | .joinPresent => { st with joinPresentDue := none }
  | .order t => { st with orders := st.orders.map fun o => if o.tag = t then { o with due := none } else o }
  | .loose => { st with sendList := st.sendList.filter (·.due.place ≠ place) }

end Sys2Proof.Machine
end

