-- ==== Sys2Proof/Machine/Crossing.lean ====
section
/-! DEFINITION. What each kind of frame does when it is taken (R22 to R42, R71 to R89, R116 to R120, R127 to R134), and
the Send List entries it needs (R109). -/

namespace Sys2Proof.Machine

open Sys2Proof.Config

/-! ## Zone frames (R23, R30, R32) -/

/-- A CLAIM from neighbour n (R22 to R25). -/
def Station.claimFrom (st : Station) (n : Address) (m : MoverId) (g : ZoneNo) (entryFlag : Bool) : Station :=
  let cls := st.claimClass m n entryFlag
  match st.claimVerdict m g (cls = .conflict), st.localIndex g with
  | .denied r, _ => st.placeSend n (.denied m g r)
  | .grantAgain, _ => st.placeSend n (.grant m g)
  | .queuedAgain p, _ => st.placeSend n (.queued m g p)
  | .isNew, none => st
  | .isNew, some k =>
    match st.admission k m cls with
    | .granted | .queued => st.admitClaim k m n cls
    | .deferred => st.placeSend n (.deferred m g)

/-- Frames from n about m are taken as from the mover's owner: n is the handing target or the lost-handover target
(R82, R83). -/
def Station.ownerNow (st : Station) (m : MoverId) (n : Address) : Bool :=
  (st.entry? m).any fun e => e.handingTo n || e.lostTo n

/-- The released set of a RELEASE: zones of the run that lie in this segment and are HELD by the mover (R30). -/
def Station.releasedSet (st : Station) (m : MoverId) (f n : Nat) : List Nat :=
  (st.holdings m).filter fun k => f ≤ st.globalZone k && st.globalZone k < f + n

/-- The RELEASE from station s is accepted (R30). -/
def Station.releaseAccepted (st : Station) (s : Address) (m : MoverId) (set : List Nat) : Bool :=
  !set.isEmpty &&
    ((set.all fun k => (st.zone? k).any (·.state.heldFor s)) || st.ownerNow m s) &&
    unbroken ((st.holdings m).filter fun k => !set.contains k)

/-- A RELEASE from neighbour s of the zones f to f + n − 1 (R30). -/
def Station.releaseFrom (st : Station) (s : Address) (m : MoverId) (f n : Nat) : Station :=
  let set := st.releasedSet m f n
  if st.releaseAccepted s m set then (st.releaseOwn m set).testVisitor m else st

/-- A CANCEL from neighbour s (R32). -/
def Station.cancelFrom (st : Station) (s : Address) (m : MoverId) (g : ZoneNo) : Station :=
  match st.localIndex g with
  | none => st
  | some k =>
    let claimant := (st.zone? k).bind fun z => (z.waiting.find? (·.mover = m)).map (·.station)
    if claimant.any fun c => c = s || (st.entry? m).any (·.handingTo s) then st.removeClaim k m
    else if st.holds m k then st.releaseFrom s m g 1
    else st

/-! ## Answers to claims (R41, R42) -/

/-- An answer from n naming zone g matches the entry's outstanding claim (R41). -/
def Station.answers (st : Station) (e : Entry) (n : Address) (g : ZoneNo) : Bool :=
  e.state = .resident && e.claim.any (·.zone = g) && (st.localIndex g).isNone &&
    st.sideOfAddress n = some (st.sideOfZone g)

/-- What R42 makes of a GRANT that matches nothing. -/
inductive StrayGrant
  | ignored
  | oweRelease
  | sendRelease
deriving DecidableEq, Repr

/-- The handling of a GRANT from n for zone g that matches no outstanding claim (R42). -/
def Station.strayGrant (st : Station) (n : Address) (m : MoverId) (g : ZoneNo) : StrayGrant :=
  match st.entry? m with
  | none => .sendRelease
  | some e =>
    match e.state with
    | .resident => if e.remote.contains g then .ignored else .oweRelease
    | .handing => if e.handingTo n then .ignored else .sendRelease
    | .visitor => if e.visitorOf n then .ignored else .sendRelease
    | .stray => .sendRelease

/-- The GRANT matches the outstanding claim (R41). -/
def Station.grantMatches (st : Station) (n : Address) (m : MoverId) (g : ZoneNo) : Bool :=
  (st.entry? m).any fun e => st.answers e n g

/-- A GRANT from neighbour n (R41, R42). A matching one ends the claim, and its zone joins the remote holdings toward its
side (R10; log entry 51). -/
def Station.grantFrom (st : Station) (n : Address) (m : MoverId) (g : ZoneNo) : Station :=
  if st.grantMatches n m g then
    st.modifyEntry m fun e => { e.addRemote (st.sideOfZone g) g with claim := none, claimDue := none }
  else match st.strayGrant n m g with
    | .ignored => st
    | .oweRelease => match st.sideOfAddress n with
      | some d => st.oweRelease m d [g]
      | none => st
    | .sendRelease => st.placeSend n (.release m g 1)

/-- A QUEUED from neighbour n (R41). -/
def Station.queuedFrom (st : Station) (n : Address) (m : MoverId) (g : ZoneNo) (place : Nat) : Station :=
  if st.grantMatches n m g then
    st.modifyEntry m fun e =>
      { e with claim := some { zone := g, phase := .queued, sends := 1, periods := 0, place := place }, claimDue := none }
  else st

/-- A DENIED from neighbour n (R41, R54). -/
def Station.deniedFrom (st : Station) (n : Address) (m : MoverId) (g : ZoneNo) (r : DenialReason) : Station :=
  if st.grantMatches n m g then st.denyClaim m g r else st

/-- A DEFERRED from neighbour n (R41). -/
def Station.deferredFrom (st : Station) (n : Address) (m : MoverId) (g : ZoneNo) : Station :=
  if st.grantMatches n m g then
    st.modifyEntry m fun e =>
      { e with claim := e.claim.map fun c => { c with phase := .deferred, sends := 0, periods := 0 }, claimDue := none }
  else st

/-! ## HANDOVER (R71 to R77) -/

/-- What R71 makes of a HANDOVER. -/
inductive HandoverVerdict
  | take
  | duplicate
  | refuse (r : HandoverRefusal)
deriving DecidableEq, Repr

/-- The HANDOVER for mover m from neighbour n decided (R71). -/
def Station.handoverVerdict (st : Station) (n : Address) (m : MoverId) : HandoverVerdict :=
  if st.mode ≠ .online then .refuse .state
  else match st.entry? m with
    | none => .refuse .unknown
    | some e =>
      match e.state with
      | .stray => .refuse .unknown
      | .visitor => if e.owner = some n then .take else .refuse .conflict
      | .resident | .handing => if e.previousOwner = some n then .duplicate else .refuse .conflict

/-- A zone lies in a run. -/
def inRun (run : ZoneNo × Nat) (g : ZoneNo) : Bool := run.1 ≤ g && g < run.1 + run.2

/-- Zone k, HELD by the mover, takes s as holder station; GRANT owed is cleared when s is the own address (R33). -/
def Station.relabelZone (st : Station) (k : Nat) (m : MoverId) (s : Address) : Station :=
  st.modifyZone k fun (z : Zone) =>
    if z.state.heldBy m then { z with state := .held m s, grantOwed := if s = st.own then none else z.grantOwed } else z

/-- The mover's claim in zone k's list takes s as claimant station; its entry flag is cleared, and its QUEUED owed when
s is the own address (R33). -/
def Station.relabelClaim (st : Station) (k : Nat) (m : MoverId) (s : Address) : Station :=
  st.modifyZone k fun (z : Zone) =>
    { z with waiting := z.waiting.map fun c =>
        if c.mover = m then
          { c with station := s, entryFlag := false, queuedOwed := if s = st.own then none else c.queuedOwed }
        else c }

/-- R72: the own zones HELD by the mover are kept and relabelled when the receiver run or the delivered claim names
them, and freed by implicit release otherwise, in ascending local index, each list examined at its own freeing (log entry
41). -/
def Station.settleZones (st : Station) (c : HandoverContent) : Station :=
  (st.holdings c.mover).foldl (fun st k =>
    let g := st.globalZone k
    if inRun c.receiverRun g || c.claim.any (·.zone = g) then st.relabelZone k c.mover st.own else st.releaseZone k) st

/-- R73: the mover's claims in own wait lists; the one on the delivered claim's zone is kept and relabelled, any other is
removed by implicit cancel, and the head of its list is examined when that zone is FREE (an examination of any other zone
does nothing). Several are taken in ascending local index (log entry 41). -/
def Station.settleClaims (st : Station) (c : HandoverContent) : Station :=
  (st.claimedZones c.mover).foldl (fun st k =>
    if c.claim.any (·.zone = st.globalZone k) then st.relabelClaim k c.mover st.own
    else (st.unlistClaim k c.mover).examine [k]) st

/-- The outstanding claim that the delivered claim becomes (R73). -/
def Station.deliveredClaim (st : Station) (n : Address) (c : HandoverContent) : Option Claim :=
  c.claim.bind fun q =>
    match st.localIndex q.zone with
    | some k => if !st.holds c.mover k && st.claims c.mover k then some (.localQueued q.zone) else none
    | none =>
      if (st.sideOfAddress n).any fun d => st.inNeighbourSegment d q.zone then
        some { zone := q.zone, phase := .queued, sends := 1, periods := 0, place := 0 }
      else none

/-- The zones of the sender run that lie in the sender's segment (R74). -/
def Station.senderZones (st : Station) (n : Address) (run : ZoneNo × Nat) : List ZoneNo :=
  ((List.range run.2).map (run.1 + ·)).filter fun g =>
    (st.localIndex g).isNone && st.sideOfAddress n = some (st.sideOfZone g)

/-- The RESIDENT entry of a take (R13, R74). -/
def Station.takenEntry (st : Station) (n : Address) (c : HandoverContent) : Entry :=
  { Entry.blank c.mover .resident with
    owner := some st.own, motion := c.motion, setpoint := c.setpoint, velocity := c.velocity,
    dwellRemaining := c.dwellRemaining, zoneWaitCount := c.zoneWaitCount, flushedAtStop := c.flushedAtStop,
    active := c.active, queue := c.queue, denied := c.denied, claim := st.deliveredClaim n c,
    remoteLower := if st.sideOfAddress n = some .lower then st.senderZones n c.senderRun else []
    remoteUpper := if st.sideOfAddress n = some .upper then st.senderZones n c.senderRun else []
    previousOwner := some n, takenDue := some (n, st.freshDue) }

/-- The two fault tests that follow a take (R75). -/
def Station.takeFaults (st : Station) (n : Address) (m : MoverId) (p : Position) : Station :=
  let st :=
    match st.sideOfAddress n with
    | some d =>
      if (st.side d).trippedMark && st.bodyTouches p d then st.enterFault m .neighbourTrip none else st
    | none => st
  match st.drive with
  | .tripped _ => st.enterFault m .driveTrip none
  | .off | .on => st

/-- A take (R72 to R75). The entry is RESIDENT from its start, so that no examination made within it frees the entry (log
entry 50). -/
def Station.takeHandover (st : Station) (n : Address) (c : HandoverContent) : Station :=
  let entered := st.modifyEntry c.mover fun e => { e with state := .resident }
  let settled := (entered.settleZones c).settleClaims c
  (((settled.modifyEntry c.mover fun _ => settled.takenEntry n c).bump).writeDemand c.mover 0).takeFaults n c.mover
    c.setpoint

/-- A HANDOVER from neighbour n (R71, R76, R77). -/
def Station.handoverFrom (st : Station) (n : Address) (c : HandoverContent) : Station :=
  match st.handoverVerdict n c.mover with
  | .take => st.takeHandover n c
  | .duplicate =>
    if (st.entry? c.mover).any fun e => e.state = .resident && e.takenDue.isSome then st
    else st.placeSend n (.taken c.mover)
  | .refuse r => st.placeSend n (.refused c.mover r)

/-! ## TAKEN, REFUSED, TRACK (R78, R79, R89) -/

/-- The loose sends that a TAKEN from n leads to: what the entry owes toward the other side, RELEASEs in ascending order
of first zone, then the CANCEL (R78). -/
def Station.takenSends (st : Station) (n : Address) (e : Entry) : List (Address × Frame) :=
  match st.sideOfAddress n with
  | none => []
  | some d =>
    let o := otherSide d
    ((runsOf (e.releaseZones o)).map fun r => (st.neighbourAt o, .release e.id r.1 r.2)) ++
      (e.cancelDue.toList.filter fun p => st.sideOfZone p.1 = o).map fun p => (st.neighbourAt o, .cancel e.id p.1)

/-- Every zone HELD by the mover and every claim of it in a wait list relabelled (R33). -/
def Station.relabelAll (st : Station) (m : MoverId) (s : Address) : Station :=
  let st := (st.holdings m).foldl (fun st k => st.relabelZone k m s) st
  (st.claimedZones m).foldl (fun st k => st.relabelClaim k m s) st

/-- The freeing on TAKEN: of an entry whose mover holds no own zone (R13, R15), and so of every one that step 4 of R78 frees,
whose mover has no claim in an own wait list either (log entry 52). -/
def Station.testTaken (st : Station) (m : MoverId) : Station :=
  if (st.holdings m).isEmpty then st.freeEntry m else st

/-- A TAKEN from n applied (R78). -/
def Station.applyTaken (st : Station) (n : Address) (e : Entry) : Station :=
  let sent := (st.takenSends n e).foldl (fun st p => st.placeSend p.1 p.2) st
  let labelled := sent.relabelAll e.id n
  ((labelled.modifyEntry e.id fun _ =>
    { Entry.blank e.id .visitor with owner := some n, actual := e.actual }).recompute e.id).testTaken e.id

/-- A TAKEN from n to this station (R78, R82). -/
def Station.takenFrom (st : Station) (n : Address) (m : MoverId) : Station :=
  match st.entry? m with
  | none => st
  | some e => if e.handingTo n || e.lostTo n then st.applyTaken n e else st

/-- A REFUSED from n (R79, R80). -/
def Station.refusedFrom (st : Station) (n : Address) (m : MoverId) (r : HandoverRefusal) : Station :=
  if (st.entry? m).any (·.handingTo n) then st.endHandover m .handoverRefused (some r) else st

/-- A TRACK from n (R89). -/
def Station.trackFrom (st : Station) (n : Address) (m : MoverId) (p : Position) (v d : Int) : Station :=
  if (st.entry? m).any (·.visitorOf n) then
    (st.modifyEntry m fun e =>
      { e with shadow := some { setpoint := p, velocity := v, demand := d, age := 0, valid := true } }).writeDemand m d
  else st

/-! ## PRESENT and NOTICE (R116, R118, R120) -/

/-- The PRESENT from the neighbour on that side fits the own record (R116). -/
def Station.consistent (st : Station) (p : Present) : Side → Bool
  | .upper => p.origin = st.segmentEnd && p.lower = some st.own
  | .lower => p.origin + zoneLength * p.coils = st.conf.origin && p.upper = some st.own

/-- A neighbour's drive state applied (R120). -/
def Station.neighbourDrive (st : Station) (d : Side) (ds : DriveState) : Station :=
  let s := st.side d
  let n := st.neighbourAt d
  match ds, s.trippedMark with
  | .tripped cause, false =>
    let marked := (st.setSide d { s with drive := some ds, trippedMark := true }).report (.neighbourTrip n cause)
    marked.faultEach marked.movers
      (fun e => e.runsMotion && !e.motion.isFaulted && marked.bodyTouches e.setpoint d) .neighbourTrip
  | .tripped _, true => st.setSide d { s with drive := some ds }
  | .off, true | .on, true =>
    (st.setSide d { s with drive := some ds, trippedMark := false }).report (.neighbourResume n)
  | .off, false | .on, false => st.setSide d { s with drive := some ds }

/-- The VISITORs of other stations that hold and claim nothing gone (R15); those of n stay for step 3 of R118 (log
entry 47). -/
def Station.dropIdleVisitors (st : Station) (n : Address) : Station :=
  { st with entries := st.entries.filter fun e => e.visitorOf n || !st.idleVisitor e.id }

/-- The lists that R27 has examined after step 2 of R118: of the zones that become FREE, and of the FREE zones whose head
goes; a head that R34 left on a FREE zone is not among them (log entry 55). -/
def Station.purgeLists (st : Station) (n : Address) : List Nat :=
  st.localZones.filter fun k => (st.zone? k).any (·.state.heldFor n) || (st.freeHead? k).any (·.station = n)

/-- R118 step 2: zones HELD for n become FREE and claims of n go, with the VISITORs left with nothing; then the lists are
examined, those waiting for a table entry last (log entry 55). -/
def Station.purgeZones (st : Station) (n : Address) : Station :=
  let freed := st.localZones.foldl (fun st k =>
    let st := if (st.zone? k).any (·.state.heldFor n) then st.freeZone k else st
    st.modifyZone k fun z => { z with waiting := z.waiting.filter (·.station ≠ n) }) st
  ((freed.dropIdleVisitors n).examine (st.purgeLists n)).offerEntry

/-- R118 step 3 for one mover: a VISITOR of n becomes STRAY when its actual position is present and is freed
otherwise. -/
def Station.purgeVisitor (st : Station) (n : Address) (m : MoverId) : Station :=
  match st.entry? m with
  | none => st
  | some e =>
    if !e.visitorOf n then st
    else if e.actual.isSome then
      (st.modifyEntry m fun _ => { Entry.blank m .stray with actual := e.actual }).recompute m
    else (st.freeEntry m).recompute m

/-- R118 steps 5 and 6 for one entry: everything of it that concerns the neighbour n on side d. -/
def Station.purgeEntry (st : Station) (n : Address) (d : Side) (e : Entry) : Entry :=
  if !e.runsMotion then e
  else
    let toward := fun g => (st.localIndex g).isNone && st.sideOfZone g = d
    let keepClaim := !(e.claim.any fun c => toward c.zone)
    { (e.setReleaseDue d none).filterRemote fun g => st.sideOfZone g ≠ d with
      claim := if keepClaim then e.claim else none
      claimDue := if keepClaim then e.claimDue else none
      handover := e.handover.map fun h => { h with travelled := h.travelled.filter fun c => !toward c.zone }
      lostTarget := e.lostTarget.filter (· ≠ n)
      previousOwner := e.previousOwner.filter (· ≠ n)
      takenDue := e.takenDue.filter (·.1 ≠ n)
      cancelDue := e.cancelDue.filter fun p => st.sideOfZone p.1 ≠ d
      trackDue := e.trackDue.filter (·.1 ≠ d) }

/-- The purge for a restart of the neighbour n on side d (R118). In step 3 the VISITORs of n, each freed entry offered at
its own freeing (log entry 20), and in step 4 the HANDING entries are taken in ascending mover ID (log entry 41). -/
def Station.purge (st : Station) (n : Address) (d : Side) : Station :=
  let zones := (st.report (.neighbourRestart n)).purgeZones n
  let visitors := zones.movers.foldl (fun st m => st.purgeVisitor n m) zones
  let handed := visitors.movers.foldl (fun st m =>
    if (st.entry? m).any (·.handingTo n) then st.endHandover m .handoverLost none else st) visitors
  let entries := { handed with entries := handed.entries.map (handed.purgeEntry n d),
                               sendList := handed.sendList.filter (·.destination ≠ n) }
  entries.setSide d { entries.side d with presentDue := none }

/-- Every side is EDGE or OPEN (R115). -/
def Station.sidesSettled (st : Station) : Bool :=
  (st.lowerSide.state = .edge || st.lowerSide.state = .opened) &&
    (st.upperSide.state = .edge || st.upperSide.state = .opened)

/-- Step 2 of R116. -/
def Station.judgePresent (st : Station) (d : Side) (p : Present) : Station :=
  if st.consistent p d then (st.setSide d { st.side d with span := some (p.origin, p.coils) }).openSide d
  else
    let closed := st.closeSide d .mismatch
    closed.setSide d { closed.side d with probeCount := 0 }

/-- The side has passed from UNHEARD since loading: OPEN or CLOSED (R116). -/
def SideState.heard : SideState → Bool
  | .opened | .closed _ => true
  | .edge | .unheard => false

/-- A PRESENT from station n (R116). -/
def Station.presentFrom (st : Station) (n : Address) (p : Present) : Station :=
  match st.sideOfAddress n with
  | none => st
  | some d =>
    let purged := if p.fresh && (st.side d).state.heard then st.purge n d else st
    let applied := (purged.judgePresent d p).neighbourDrive d p.drive
    let answered := if p.answerWanted && st.consistent p d then applied.owePresent d false else applied
    if answered.mode = .joining && answered.sidesSettled then answered.becomeOnline else answered

/-- A NOTICE from station n (R120). -/
def Station.noticeFrom (st : Station) (n : Address) (ds : DriveState) : Station :=
  match st.sideOfAddress n with
  | none => st
  | some d => st.neighbourDrive d ds

/-! ## ORDER and ORDER_REPLY (R127 to R130) -/

/-- An ORDER leads to an ORDER_REPLY here (R109, R127). -/
def Station.orderReplies (st : Station) (m : MoverId) : Bool :=
  st.mode = .online && (st.entry? m).any Entry.runsMotion

/-- An ORDER from station n (R127 to R129): the reply is placed first, at the same event. -/
def Station.orderFrom (st : Station) (n : Address) (tag : Nat) (m : MoverId) (k : OrderKind) : Station :=
  if st.mode ≠ .online then st
  else match st.entry? m with
    | none => st
    | some e =>
      match e.state with
      | .resident =>
        (st.placeSend n (.orderReply tag m (orderResultOf (st.orderRefusal e k)))).applyOrder e k
      | .handing => st.placeSend n (.orderReply tag m .retry)
      | .stray | .visitor => st

/-- A pending order ends and is freed. -/
def Station.endOrder (st : Station) (tag : Nat) : Station := { st with orders := st.orders.filter (·.tag ≠ tag) }

/-- RETRY seen is set in a pending order (R126, R130). -/
def Station.retrySeen (st : Station) (tag : Nat) (n : Address) : Station :=
  { st with orders := st.orders.map fun o => if o.tag = tag then { o with retrySeen := some n } else o }

/-- An ORDER_REPLY from station n (R130). -/
def Station.replyFrom (st : Station) (n : Address) (tag : Nat) (m : MoverId) (r : OrderResult) : Station :=
  match st.orders.find? (·.tag = tag) with
  | none => st
  | some o =>
    if o.due.isSome || o.mover ≠ m then st
    else if r = .retry then st.retrySeen tag n
    else (st.endOrder tag).report (.orderResult m (some n) tag r)

/-- The origin's own check at the end of its broadcast (R126). -/
def Station.originCheck (st : Station) (tag : Nat) : Station :=
  match st.orders.find? (·.tag = tag) with
  | none => st
  | some o =>
    match st.entry? o.mover with
    | none => st
    | some e =>
      match e.state with
      | .resident =>
        ((st.applyOrder e o.kind).endOrder tag).report
          (.orderResult o.mover (some st.own) tag (orderResultOf (st.orderRefusal e o.kind)))
      | .handing => st.retrySeen tag st.own
      | .stray | .visitor => st

/-! ## The taking of a frame -/

/-- Free Send List entries a frame from n needs (R109). -/
def Station.sendsNeeded (st : Station) (n : Address) : Frame → Nat
  | .claim .. => 1
  | .grant m g => if !st.grantMatches n m g && st.strayGrant n m g = .sendRelease then 1 else 0
  | .handover c =>
    match st.handoverVerdict n c.mover with
    | .take => 0
    | .duplicate => if (st.entry? c.mover).any fun e => e.state = .resident && e.takenDue.isSome then 0 else 1
    | .refuse _ => 1
  | .taken m =>
    match st.entry? m with
    | some e => if e.handingTo n || e.lostTo n then (st.takenSends n e).length else 0
    | none => 0
  | .order _ m _ => if st.orderReplies m then 1 else 0
  | .present _ | .notice _ | .cancel .. | .queued .. | .denied .. | .deferred .. | .release .. | .refused ..
  | .track .. | .orderReply .. => 0

/-- A frame from n handed to the block that owns its matter (R97, R107 step 6). -/
def Station.handOn (st : Station) (n : Address) : Frame → Station
  | .present p => st.presentFrom n p
  | .notice d => st.noticeFrom n d
  | .claim m g f => st.claimFrom n m g f
  | .cancel m g => st.cancelFrom n m g
  | .grant m g => st.grantFrom n m g
  | .queued m g p => st.queuedFrom n m g p
  | .denied m g r => st.deniedFrom n m g r
  | .deferred m g => st.deferredFrom n m g
  | .release m f c => st.releaseFrom n m f c
  | .handover c => st.handoverFrom n c
  | .taken m => st.takenFrom n m
  | .refused m r => st.refusedFrom n m r
  | .track m p v d => st.trackFrom n m p v d
  | .order t m k => st.orderFrom n t m k
  | .orderReply t m r => st.replyFrom n t m r

/-- The mover is watched (R133, R134). -/
def Station.watches (st : Station) (m : MoverId) : Bool :=
  match st.watchMode with
  | .off => false
  | .list => st.watchList.contains m
  | .all => true

/-- A TAKEN handed to the watch table (R134): source is the new owner, destination the previous one. -/
def Station.watchTaken (st : Station) (f : RxFrame) (m : MoverId) : Station :=
  if st.watches m then st.report (.watchOwner m f.source f.destination) else st

/-- The kind is one of the neighbour kinds (R108). -/
def Frame.neighbourKind : Frame → Bool
  | .present _ | .notice _ | .order .. | .orderReply .. => false
  | .claim .. | .cancel .. | .grant .. | .queued .. | .denied .. | .deferred .. | .release .. | .handover _
  | .taken _ | .refused .. | .track .. => true

/-- A frame accepted by the watch filter alone: neither to this station nor to all (R105). -/
def Station.overheard (st : Station) (f : RxFrame) : Bool := f.destination ≠ st.own && f.destination ≠ 63

/-- Steps 4 to 6 of R107 for the head of the queue: foreign, stalled, or handed on. -/
def Station.settleHead (st : Station) (f : RxFrame) (rest : List RxFrame) (fr : Frame) : Station :=
  let popped := { st with rxQueue := rest, rxStalled := false }
  if fr.neighbourKind && !st.openNeighbour f.source then popped.foreignFrame
  else if st.sendsFree < st.sendsNeeded f.source fr then { st with rxStalled := true }
  else popped.handOn f.source fr

/-- Steps 1 to 3 of R107 for the head of the queue, then the others. -/
def Station.takeHead (st : Station) (f : RxFrame) (rest : List RxFrame) : Station :=
  match parseFrame f.kind f.payload with
  | none => ({ st with rxQueue := rest } : Station).receiveError
  | some (.taken m) =>
    if st.overheard f then ({ st with rxQueue := rest } : Station).watchTaken f m
    else (if f.destination = st.own then st.watchTaken f m else st).settleHead f rest (.taken m)
  | some fr => st.settleHead f rest fr

/-- The stalled head tested again (R109): its taking resumes at step 4. -/
def Station.retestHead (st : Station) : Station :=
  match st.rxStalled, st.rxQueue with
  | true, f :: rest =>
    match parseFrame f.kind f.payload with
    | some fr => st.settleHead f rest fr
    | none => st
  | _, _ => st

/-- Some entry of the Send List before is free now. -/
def Station.sendFreedSince (st before : Station) : Bool :=
  before.sendList.any fun l => !st.sendList.any fun l' => l'.due.place = l.due.place

/-- The stalled head tested again when the event freed a Send List entry (R109). -/
def Station.retestIfFreed (st before : Station) : Station := if st.sendFreedSince before then st.retestHead else st

/-- The kind code is one of the fifteen (R92). -/
def knownKind (k : Nat) : Bool := 1 ≤ k && k ≤ 15

/-- Frames of no known kind at the head are malformed, discarded and counted (R181; log entry 17). -/
def Station.dropUnknown (st : Station) : Station :=
  match (st.rxQueue.takeWhile fun f => !knownKind f.kind).length with
  | 0 => st
  | dropped + 1 =>
    ({ st with rxQueue := st.rxQueue.dropWhile fun f => !knownKind f.kind } : Station).countLink fun c =>
      { c with receiveErrors := raiseCounter c.receiveErrors (dropped + 1) }

/-- The kind goes ahead of a stalled head: PRESENT and NOTICE (R109). -/
def passesStall (f : RxFrame) : Bool := f.kind = 1 || f.kind = 2

/-- A PRESENT or NOTICE taken from behind a stalled head (R107, R109). -/
def Station.takeBehind (st : Station) (f : RxFrame) : Station :=
  match parseFrame f.kind f.payload with
  | none => st.receiveError
  | some fr => st.handOn f.source fr

/-- The next frame is taken when it is one the event names (R107); while the head is stalled, the next one is the first
PRESENT or NOTICE behind it (R109). -/
def Station.takeFrame (st : Station) (wanted : RxFrame → Bool) : Station :=
  if !st.running then st
  else
    let cleared := if st.rxStalled then st else st.dropUnknown
    match cleared.rxStalled, cleared.rxQueue with
    | _, [] => cleared
    | false, f :: rest => if wanted f then (cleared.takeHead f rest).retestIfFreed cleared else cleared
    | true, f :: rest =>
      match rest.find? passesStall with
      | some g =>
        if wanted g then
          (({ cleared with rxQueue := f :: rest.erase g } : Station).takeBehind g).retestIfFreed cleared
        else cleared
      | none => cleared

end Sys2Proof.Machine
end

