-- ==== Sys2Proof/Machine/Memory.lean ====
section
/-! DEFINITION. The 64-byte pages and the write buffer of the Configuration Store as addressed memory (R173, R176):
one canonical form, one read, one write, and the whole-page operations built from them. -/

namespace Sys2Proof.Machine

open Sys2Proof.Config

/-- What an offset that is not listed reads as: FFh, the value of an erased byte (R175) and of a write buffer byte after
a reset (R176). -/
def Memory.unlisted : Byte := 0xFF

/-- Every offset of `m` lies above `low`, rising strictly, below 64, and no listed byte reads as an unlisted one. -/
def Memory.wfFrom : Nat → Memory → Bool
  | _, [] => true
  | low, (a, b) :: rest => low ≤ a && a < pageSize && b != Memory.unlisted && Memory.wfFrom (a + 1) rest

/-- The canonical form: offsets strictly rising within 0 to 63, and no entry equal to what an unlisted offset reads. -/
def Memory.wf (m : Memory) : Bool := Memory.wfFrom 0 m

/-- The byte at an offset. -/
def Memory.read : Memory → Nat → Byte
  | [], _ => Memory.unlisted
  | (a, b) :: rest, x => if a = x then b else if x < a then Memory.unlisted else Memory.read rest x

/-- Puts a byte in front of what follows, listing it only when it does not read as an unlisted one. -/
def Memory.cons (a : Nat) (b : Byte) (rest : Memory) : Memory :=
  if b = Memory.unlisted then rest else (a, b) :: rest

/-- The memory with one byte written, in canonical form. -/
def Memory.write : Memory → Nat → Byte → Memory
  | [], x, v => Memory.cons x v []
  | (a, b) :: rest, x, v =>
    if x < a then Memory.cons x v ((a, b) :: rest)
    else if x = a then Memory.cons x v rest
    else (a, b) :: Memory.write rest x v

/-- The bytes at `count` offsets from `start` on. -/
def Memory.bytes (m : Memory) (start count : Nat) : List Byte := (List.range count).map fun i => m.read (start + i)

/-- The memory whose byte at each offset from `start` is given by `f`, for `count` offsets, in canonical form. -/
def Memory.build (f : Nat → Byte) : Nat → Nat → Memory
  | _, 0 => []
  | start, count + 1 => Memory.cons start (f start) (Memory.build f (start + 1) count)

/-- A page after a COMMIT: each byte ANDed with the buffer byte at the same offset (R175). -/
def Memory.commit (page buffer : Memory) : Memory :=
  Memory.build (fun x => page.read x &&& buffer.read x) 0 pageSize

/-- A page of which each byte, at a pin reset, holds its old value or the one the operation would have given it, as
the free value numbered `n` says (R175). -/
def Memory.abandoned (n : Nat) (old new : Memory) : Memory :=
  Memory.build (fun x => if abandonedByteChanged n x then new.read x else old.read x) 0 pageSize

/-! ## The store's fields by page number -/

/-- The contents of a page. -/
def Store.page (s : Store) (p : Nat) : Memory := if p = 0 then s.page0 else s.page1

/-- The interrupted-operation mark of a page (R175). -/
def Store.mark (s : Store) (p : Nat) : Bool := if p = 0 then s.mark0 else s.mark1

/-- The store with the contents of a page replaced. -/
def Store.setPage (s : Store) (p : Nat) (m : Memory) : Store :=
  if p = 0 then { s with page0 := m } else { s with page1 := m }

/-- The store with the interrupted-operation mark of a page replaced. -/
def Store.setMark (s : Store) (p : Nat) (b : Bool) : Store :=
  if p = 0 then { s with mark0 := b } else { s with mark1 := b }

/-- What the operation makes of the page's contents at its completion (R175). -/
def Store.afterOp (s : Store) : StoreOp → Nat → Memory
  | .erase, _ => []
  | .commit, p => (s.page p).commit s.buffer

/-- The write buffer at FFh and the offset at 0 (R176). -/
def Store.clearBuffer (s : Store) : Store := { s with buffer := [], offset := 0 }

/-- One data byte of a STAGE: written at the staging offset, which then rises by 1 below 63 and stays at 63 (R176). -/
def Store.stageByte (s : Store) (b : Byte) : Store :=
  { s with buffer := s.buffer.write s.offset b, offset := if s.offset < pageSize - 1 then s.offset + 1 else s.offset }

/-- Starts an ERASE or COMMIT of a page (R175): its mark is set and the store is busy with it. -/
def Store.start (s : Store) (op : StoreOp) (p : Nat) : Store :=
  { s.setMark p true with busy := some (op, p) }

/-- Completes the operation in flight, without its report (R175). -/
def Store.complete (s : Store) (op : StoreOp) (p : Nat) : Store :=
  let done := { (s.setPage p (s.afterOp op p)).setMark p false with busy := none }
  match op with
  | .erase => done
  | .commit => done.clearBuffer

/-- The store across a pin reset (R173, R175, R176): pages and marks are kept, an operation in flight is abandoned with
its mark left set, the buffer is FFh and the offset 0. -/
def Store.pinReset (s : Store) (n : Nat) : Store :=
  match s.busy with
  | none => s.clearBuffer
  | some (op, p) =>
    { (s.setPage p (Memory.abandoned n (s.page p) (s.afterOp op p))).clearBuffer with busy := none }

end Sys2Proof.Machine
end

