-- ==== Sys2Proof/Machine/Events.lean ====
section
/-! DEFINITION. What every event of the part ends with: its reports enter the queue and the switch outputs follow their
requests (R155, R166); what every whole message is answered with (R162 to R164); and the guard of the events that need
a running station. -/

namespace Sys2Proof.Machine

/-- The end of an event that left the station as `st`: the reports it made enter the Report Queue in their order, at the
period count of the event (R166), and every switch output follows its request (R155). -/
def State.commit (s : State) (st : Station) : State :=
  { s with station := ({ st with outbox := [] } : Station).refreshOutputs,
           reports := s.reports.addAll st.periodCount st.outbox }

/-- A command's response replaces the contents of the response buffer; the transaction shifted out the one before it
(R160, R162). -/
def State.answer (s : State) (seq : Nat) (result : ResultCode) (data : ReplyData) : State :=
  { s with port := { response := some { seq, result, data }, shifted := responseBytes s.port.response } }

/-- Byte `i` shifted out at SDO in the last transaction: the response fixed at its start, then FFh for as long as the
host kept clocking (R160, R162). -/
def Port.shiftedByte (p : Port) (i : Nat) : Byte := (p.shifted[i]?).getD 0xFF

/-- An answer without data: STATE, BAD_PARAM, BUSY, NOT_FOUND, or an OK that carries nothing. -/
def State.answerPlain (s : State) (seq : Nat) (result : ResultCode) : State := s.answer seq result .empty

/-- REFUSED with a reason (R163). -/
def State.refuse (s : State) (seq : Nat) (r : RefuseReason) : State := s.answer seq .refused (.reason r)

/-- Station states in which most commands are taken: JOINING, ONLINE and MAINTENANCE (R164). -/
def Mode.started : Mode → Bool
  | .joining | .online | .maintenance => true
  | .loading | .unconfigured => false

/-- Every station state but LOADING (R164). -/
def Mode.loaded : Mode → Bool
  | .loading => false
  | .unconfigured | .joining | .online | .maintenance => true

/-- A whole message decided in the order of R163: the station state, then the ranges, then the command's own rule. -/
def State.decide (s : State) (seq : Nat) (taken inRange : Bool) (own : State) : State :=
  if !taken then s.answerPlain seq .state
  else if !inRange then s.answerPlain seq .badParam
  else own

/-- An event of a block that works only in JOINING, ONLINE and MAINTENANCE (R46, R110): the station's work, when the
event comes about now; otherwise nothing changes (log entry 4). -/
def State.whenRunning (s : State) (comes : Bool) (work : Station → Station) : State :=
  if s.station.running && comes then s.commit (work s.station) else s

end Sys2Proof.Machine
end

