-- ==== Sys2Proof/Machine/StationControl.lean ====
section
/-! DEFINITION. Pin reset, RESTART, the end of LOADING (R111 to R115), MAINTENANCE (R121) and READ SIDES (R123). -/

namespace Sys2Proof.Machine

open Sys2Proof.Config

/-- The station's blocks at their reset values, the trip input levels kept: they are pins (log entry 7). -/
def Station.restarted (st : Station) : Station := Station.atReset st.overCurrent st.supplyLow

/-- PIN_RESET (R111): every block at its reset values, LOADING begun; the store keeps its pages and marks, and an
operation in flight is abandoned (R175). -/
def execPinReset (s : State) : Host.Outcome State Fault Refusal :=
  .next { s with station := s.station.restarted, reports := Reports.atReset,
                 port := { response := none, shifted := [] }, store := s.store.pinReset s.free, free := s.free + 1 }

/-- RESTART (R113): its OK is placed, then LOADING begins; the report state is kept, and the store with its write buffer
cleared. -/
def execRestart (seq : Nat) (s : State) : Host.Outcome State Fault Refusal :=
  .next (s.decide seq s.station.mode.loaded true
    (if s.store.busy.isSome then s.answerPlain seq .busy
     else { s.answerPlain seq .ok with station := s.station.restarted, store := s.store.clearBuffer }))

/-! ## The end of LOADING -/

/-- Page 0 as LOADING judges it (R112, R173): its record when the mark is clear, the check matches and every field
passes. -/
def Store.record? (s : Store) : Option Record :=
  if !s.mark0 && pageCheckOk s.page0.read then recordOfPage s.page0.read else none

/-- Page 1 is valid (R173). -/
def Store.blocksValid (s : Store) : Bool := !s.mark1 && pageCheckOk s.page1.read

/-- The zone table that LOADING sets (R20): every zone FREE with an empty list, those whose flag is set in a valid page 1
BLOCKED. -/
def Store.zoneTable (s : Store) (coils : Nat) : List Zone :=
  (List.range coils).map fun k =>
    if s.blocksValid && blockFlag s.page1.read k then { Zone.fresh with state := .blocked } else Zone.fresh

/-- The trip inputs that are active and read, in the order coil 0 to coil C − 1, then SUPPLY (R147, R148). -/
def Station.activeInputs (st : Station) : List TripCause :=
  if st.record.isNone then []
  else ((List.range st.coilCount).filter fun k => st.overCurrent.getLsbD k).map .coil ++
    (if st.supplyLow then [.supply] else [])

/-- The cause latched from the inputs found active when they begin to be read (R147, R157): any of them, as the free
value numbered `n` says (log entry 9). -/
def firstTaken (inputs : List TripCause) (n : Nat) : Option TripCause := inputs[firstTripInput n % inputs.length]?

/-- The station with a valid record applied, entering JOINING (R111, R114, R115, R147). -/
def Station.configured (st : Station) (r : Record) (store : Store) (n : Nat) : Station :=
  let applied : Station :=
    { st with record := some r, zones := store.zoneTable r.coils,
              lowerSide := SideRecord.ofNeighbour r.lower, upperSide := SideRecord.ofNeighbour r.upper,
              pwm := { running := true, count := 0, up := true },
              mode := .joining, joinCount := 0, joinPresentDue := some st.freshDue }
  let latched := { applied with latch := firstTaken applied.activeInputs n }
  if store.blocksValid then latched.bump else latched.bump.report (.storeInvalid 1)

/-- The station after the reads of LOADING (R111). Without a record the zone table stays without zones and both sides stay
EDGE, and STATUS shows them so in UNCONFIGURED (R165; log entry 28). -/
def Station.loaded (st : Station) (store : Store) (n : Nat) : Station :=
  match store.record? with
  | some r => st.configured r store n
  | none => ({ st with mode := .unconfigured } : Station).report (.storeInvalid 0)

/-- LOADING_END (R111). It comes about only in LOADING. -/
def execLoadingEnd (s : State) : Host.Outcome State Fault Refusal :=
  .next (if s.station.mode = .loading then
      { s.commit (s.station.loaded s.store s.free) with free := s.free + 1 }
    else s)

/-! ## MAINTENANCE and READ SIDES -/

/-- Entry into MAINTENANCE (R35, R121): the wait lists are emptied with DENIED(STATE), HELD zones become FREE, and the
Mover Table, which holds STRAYs alone, is emptied. -/
def Station.enterMaintenance (st : Station) : Station :=
  let emptied : Station :=
    { st with mode := .maintenance, zones := st.zones.map fun (z : Zone) => { z with waiting := [] } }
  let told := st.allClaims.foldl (fun st p => st.tellDenied p.1 p.2 .state) emptied
  let freed := told.localZones.foldl
    (fun st k => if (st.zone? k).any (·.state.isHeld) then st.freeZone k else st) told
  { freed with entries := freed.entries.filter fun e => e.state ≠ .stray }

/-- Some entry is RESIDENT, HANDING or VISITOR (R121). -/
def Station.moversActive (st : Station) : Bool := st.entries.any fun e => e.state ≠ .stray

/-- MAINTENANCE (R121). -/
def execMaintenance (seq : Nat) (s : State) : Host.Outcome State Fault Refusal :=
  .next (s.decide seq (s.station.mode = .online) true
    (if s.store.busy.isSome then s.answerPlain seq .busy
     else if s.station.moversActive then s.refuse seq .moversActive
     else if s.station.driveOn then s.refuse seq .driveOn
     else (s.commit s.station.enterMaintenance).answer seq .ok
       (.number (s.station.entries.filter fun e => e.state = .stray).length)))

/-- READ SIDES (R123). -/
def execReadSides (seq : Nat) (s : State) : Host.Outcome State Fault Refusal :=
  .next (s.decide seq s.station.mode.started true
    (s.answer seq .ok (.sides s.station.mode s.station.joinCount s.station.lowerSide s.station.upperSide)))

end Sys2Proof.Machine
end

