-- ==== Sys2Proof/Machine/DriveEvents.lean ====
section
/-! DEFINITION. DRIVE ON and DRIVE OFF (R148, R149), the trip inputs (R157, R158), and the coil clock's events (R154,
R156). -/

namespace Sys2Proof.Machine

/-! ## Commands -/

/-- The drive ON, trip cause and latch emptied (R148). -/
def Station.switchOn (st : Station) : Station :=
  if st.drive = .on then st else ({ st with latch := none } : Station).setDrive .on

/-- DRIVE ON (R148). -/
def execDriveOn (seq : Nat) (s : State) : Host.Outcome State Fault Refusal :=
  .next (s.decide seq (s.station.mode = .joining || s.station.mode = .online) true
    (match s.station.activeInputs.head? with
      | some c => s.answer seq .refused (.tripActive c)
      | none => (s.commit s.station.switchOn).answerPlain seq .ok))

/-- The motion state is one in which DRIVE OFF finds the mover active (R149). -/
def Motion.active : Motion → Bool
  | .moving | .dwell | .zoneWait | .stopping => true
  | .idle | .faulted _ => false

/-- DRIVE OFF is refused for the entry (R149). -/
def Entry.holdsDrive (e : Entry) : Bool := e.state = .visitor || (e.runsMotion && e.motion.active)

/-- The drive OFF (R149): from ON the remote claims are denied (R34); from TRIPPED the latch keeps its cause. -/
def Station.switchOff (st : Station) : Station :=
  match st.drive with
  | .off => st
  | .on => (st.setDrive .off).denyRemoteClaims
  | .tripped _ => st.setDrive .off

/-- DRIVE OFF (R149). -/
def execDriveOff (seq : Nat) (s : State) : Host.Outcome State Fault Refusal :=
  .next (s.decide seq s.station.mode.started true
    (if s.station.entries.any Entry.holdsDrive then s.refuse seq .moversActive
     else (s.commit s.station.switchOff).answerPlain seq .ok))

/-! ## Trip inputs -/

/-- The level of a trip input: high is active (R157). -/
def Station.inputLevel (st : Station) : TripCause → Bool
  | .coil k => st.overCurrent.getLsbD k
  | .supply => st.supplyLow

/-- The station with the level of a trip input set. -/
def Station.setInput (st : Station) (input : TripCause) (level : Bool) : Station :=
  match input with
  | .coil k =>
    { st with overCurrent := if level then st.overCurrent ||| (1#16 <<< k) else st.overCurrent &&& ~~~(1#16 <<< k) }
  | .supply => { st with supplyLow := level }

/-- The Coil Driver reads the input (R147): coils 0 to C − 1 and SUPLO once LOADING has applied a record. -/
def Station.readsInput (st : Station) : TripCause → Bool
  | .coil k => st.record.isSome && k < st.coilCount
  | .supply => st.record.isSome

/-- The mover of the entry holds a zone, own or remote, that its body at the setpoint does not touch. -/
def Station.holdsOffBody (st : Station) (e : Entry) : Bool :=
  (st.holdings e.id).any (fun k => !(bodyZones e.setpoint).contains (st.globalZone k)) ||
    e.remote.any fun g => !(bodyZones e.setpoint).contains g

/-- A mover faulted by a trip of the own drive (R158 item 4). By R61 with R57 the end of its active move releases the zones
off its body, and by R158's last paragraph holdings stay: a free value says which (log entry 57). Either way its claim is
given up. -/
def Station.tripFault (st : Station) (m : MoverId) : Station :=
  match st.entry? m with
  | none => st
  | some e =>
    if !e.runsMotion || e.motion.isFaulted then st
    else if e.state = .resident && e.active.isSome && st.holdsOffBody e && Config.tripKeepsHoldings then
      (st.giveUpClaim m).faulted e .driveTrip none
    else st.enterFault m .driveTrip none

/-- A trip while the drive is ON, in the order of R158: the mover entries in ascending mover ID. -/
def Station.trip (st : Station) (cause : TripCause) : Station :=
  let tripped := (({ st with latch := some cause } : Station).setDrive (.tripped cause)).report (.driveTrip cause)
  (tripped.movers.foldl Station.tripFault tripped).denyRemoteClaims

/-- An input that becomes active and is read (R157). -/
def Station.inputActive (st : Station) (cause : TripCause) : Station :=
  match st.drive with
  | .on => st.trip cause
  | .off => if st.latch.isNone then { st with latch := some cause } else st
  | .tripped _ => st

/-- TRIP_INPUT_ACTIVE (R157): an input already active does not become active. -/
def execTripInputActive (input : TripCause) (s : State) : Host.Outcome State Fault Refusal :=
  let leveled := s.station.setInput input true
  .next (s.commit
    (if s.station.readsInput input && !s.station.inputLevel input then leveled.inputActive input else leveled))

/-- TRIP_INPUT_INACTIVE (R157). -/
def execTripInputInactive (input : TripCause) (s : State) : Host.Outcome State Fault Refusal :=
  .next (s.commit (s.station.setInput input false))

/-! ## The coil clock's events (log entry 5) -/

/-- The state with the station after the coil clocks up to an event, unchanged when the event does not come. -/
def State.afterClocks (s : State) (st : Option Station) : State := { s with station := st.getD s.station }

/-- PWM_TURN (R154): coil clocks pass until the counter reaches 0. -/
def execPwmTurn (s : State) : Host.Outcome State Fault Refusal :=
  .next (s.afterClocks
    (s.station.clocksUntil (fun _ st => st.pwm.running && st.pwm.count = 0) (·.pwm.running)
      (2 * s.station.conf.pwmTop)))

/-- PWM_COMPARE_REACHED (R154): coil clocks pass until the counter crosses coil k's applied compare, within two PWM
periods. -/
def execPwmCompareReached (coil : Nat) (s : State) : Host.Outcome State Fault Refusal :=
  .next (s.afterClocks
    (s.station.clocksUntil (Station.comparePassed coil) (·.pwm.running) (4 * s.station.conf.pwmTop)))

/-- DEADTIME_ELAPSED (R156): coil clocks pass until the waiting switch turns on, while its request stays on. -/
def execDeadtimeElapsed (coil : Nat) (switch : SwitchName) (s : State) : Host.Outcome State Fault Refusal :=
  .next (if s.station.switchWaits coil switch then
      s.afterClocks (s.station.clocksUntil (fun _ st => (st.switchState coil switch).2)
        (fun st => (st.switchState coil switch).1) 256)
    else s)

end Sys2Proof.Machine
end

