-- ==== Sys2Proof/Machine/LinkEvents.lean ====
section
/-! DEFINITION. The events of the segment link: a frame read on the line (R91, R105, R106), the taking of each kind of
frame (R107), the start of an attempt (R93, R103), and its end (R94 to R98, R104). -/

namespace Sys2Proof.Machine

open Sys2Proof.Config

/-! ## A frame on the line -/

/-- The mover that a TAKEN's payload names in its first two bytes (R105). -/
def RxFrame.namedMover (f : RxFrame) : Option MoverId :=
  match f.payload with
  | a :: b :: _ => some (num2 a b)
  | _ => none

/-- The third condition of the receive filter (R105): a TAKEN that the watch table watches. A destination above 63 matches
no filter (section 12.2; log entry 45). -/
def Station.watchAccepts (st : Station) (f : RxFrame) : Bool :=
  f.kind = 11 && f.destination ≤ 63 && match st.watchMode with
    | .off => false
    | .list => f.namedMover.any fun m => st.watchList.contains m
    | .all => true

/-- The receive filter (R105). -/
def Station.accepts (st : Station) (f : RxFrame) : Bool :=
  f.destination = st.own || f.destination = 63 || st.watchAccepts f

/-- A frame that found the queue full (R106): turned away when it is addressed to this station, missed otherwise. -/
def Station.noRoom (st : Station) (f : RxFrame) : Station :=
  st.countLink fun c =>
    if f.destination = st.own then { c with turnedAway := raiseCounter c.turnedAway 1 }
    else { c with missedFrames := raiseCounter c.missedFrames 1 }

/-- A frame whose check matched: filtered, placed at the tail or turned away, its acknowledge slot driven when it was
placed, is addressed to this station and is no TRACK (R95, R105, R106). -/
def Station.receive (st : Station) (f : RxFrame) : Station :=
  if !st.accepts f then { st with ackDriven := false }
  else if rxQueueSize ≤ st.rxQueue.length then { st.noRoom f with ackDriven := false }
  else { st with rxQueue := st.rxQueue ++ [f], ackDriven := f.destination = st.own && f.kind ≠ 13 }

/-- What the line brought, worked (R91, R105). -/
def Station.readOff (st : Station) : LineReading → Station
  | .nothing => st
  | .error => { st.receiveError with ackDriven := false }
  | .frame f => st.receive f

/-- FRAME_RECEIVED (R105): every frame on the line but one the station drives itself. -/
def execFrameReceived (bits : List Bool) (s : State) : Host.Outcome State Fault Refusal :=
  .next (s.whenRunning s.station.attempt.isNone fun st => st.readOff (readLine bits))

/-! ## Takings (R107) -/

/-- The next frame taken when it is one that `wanted` names. -/
def State.take (s : State) (wanted : RxFrame → Bool) : State := s.whenRunning true fun st => st.takeFrame wanted

/-- The frame is of a kind, by its code (R178). -/
def RxFrame.isKind (k : Nat) (f : RxFrame) : Bool := f.kind = k

/-- PRESENT taken (R116 to R118). -/
def execPresentFrame (s : State) : Host.Outcome State Fault Refusal := .next (s.take (RxFrame.isKind 1))

/-- NOTICE taken (R120). -/
def execNoticeFrame (s : State) : Host.Outcome State Fault Refusal := .next (s.take (RxFrame.isKind 2))

/-- CLAIM taken (R22 to R25). -/
def execClaimFrame (s : State) : Host.Outcome State Fault Refusal := .next (s.take (RxFrame.isKind 3))

/-- CANCEL taken (R32). -/
def execCancelFrame (s : State) : Host.Outcome State Fault Refusal := .next (s.take (RxFrame.isKind 4))

/-- GRANT taken (R41, R42). -/
def execGrantFrame (s : State) : Host.Outcome State Fault Refusal := .next (s.take (RxFrame.isKind 5))

/-- QUEUED taken (R41). -/
def execQueuedFrame (s : State) : Host.Outcome State Fault Refusal := .next (s.take (RxFrame.isKind 6))

/-- DENIED taken (R41). -/
def execDeniedFrame (s : State) : Host.Outcome State Fault Refusal := .next (s.take (RxFrame.isKind 7))

/-- DEFERRED taken (R41). -/
def execDeferredFrame (s : State) : Host.Outcome State Fault Refusal := .next (s.take (RxFrame.isKind 8))

/-- RELEASE taken (R30). -/
def execReleaseFrame (s : State) : Host.Outcome State Fault Refusal := .next (s.take (RxFrame.isKind 9))

/-- HANDOVER taken (R71 to R77). -/
def execHandoverFrame (s : State) : Host.Outcome State Fault Refusal := .next (s.take (RxFrame.isKind 10))

/-- TAKEN addressed to this station taken (R78, R82, R134). -/
def execTakenFrame (s : State) : Host.Outcome State Fault Refusal :=
  .next (s.take fun f => f.isKind 11 && !s.station.overheard f)

/-- An overheard TAKEN taken (R134). -/
def execOverheardTaken (s : State) : Host.Outcome State Fault Refusal :=
  .next (s.take fun f => f.isKind 11 && s.station.overheard f)

/-- REFUSED taken (R79, R80). -/
def execRefusedFrame (s : State) : Host.Outcome State Fault Refusal := .next (s.take (RxFrame.isKind 12))

/-- TRACK taken (R89). -/
def execTrackFrame (s : State) : Host.Outcome State Fault Refusal := .next (s.take (RxFrame.isKind 13))

/-- ORDER taken (R127 to R129). -/
def execOrderFrame (s : State) : Host.Outcome State Fault Refusal := .next (s.take (RxFrame.isKind 14))

/-- ORDER_REPLY taken (R130). -/
def execOrderReplyFrame (s : State) : Host.Outcome State Fault Refusal := .next (s.take (RxFrame.isKind 15))

/-! ## An attempt starts (R93, R94, R103, R104) -/

/-- The send the Transmit Scheduler chooses now (R100, R103). -/
def Station.chosen (st : Station) : Option Send := chooseSend (st.allSends.filter st.eligible)

/-- The chosen send completes contention: its content is fixed and the pass counts change (R103, R104). -/
def Station.startAttempt (st : Station) (s : Send) : Station :=
  match st.frameOf s.ref s.due.place with
  | none => st
  | some f =>
    { st.passOver s.due.place with
      attempt := some { ref := s.ref, place := s.due.place, tries := s.due.tries, priority := s.priority,
                        destination := s.destination, content := f, raisedAgain := false } }

/-- The line found idle while other stations start with the contention bytes given (R93, R103): a contention lost
changes nothing. -/
def Station.contend (st : Station) (rivals : List Byte) : Station :=
  match st.chosen with
  | none => st
  | some s => if rivals.any (contentionLost (contentionByte s.priority st.own)) then st else st.startAttempt s

/-- TRANSMIT_START (R103). -/
def execTransmitStart (rivals : List Byte) (s : State) : Host.Outcome State Fault Refusal :=
  .next (s.whenRunning s.station.attempt.isNone fun st => st.contend rivals)

/-! ## An attempt ends (R94 to R98, R104) -/

/-- The outcome of an attempt that a station of an acknowledged kind acknowledged, for its record (R98): the claim is
SENT (R40), the handover AWAITING (R68), the run leaves the set of RELEASE due, any other mark is cleared. -/
def Station.delivered (st : Station) (a : Attempt) : Station :=
  match a.ref, a.content with
  | .claim m, _ =>
    st.modifyEntry m fun e =>
      { e with claimDue := none,
               claim := e.claim.map fun c => { c with phase := .sent, sends := c.sends + 1, periods := 0 } }
  | .handover m, _ =>
    st.modifyEntry m fun e =>
      { e with handover := e.handover.map fun h =>
          { h with phase := .awaiting, attempts := h.attempts + 1, waiting := 0 } }
  | .release m d, .release _ f n =>
    st.modifyEntry m fun e =>
      e.setReleaseDue d ((e.releaseDue d).bind fun r =>
        let left := r.zones.filter fun g => g < f || f + n ≤ g
        if left.isEmpty then none else some { zones := left, due := { r.due with tries := 0 } })
  | _, _ => st.clearMark a.ref a.place

/-- A delivery of a mark that still stands (R96, R98): one raised again stays due with tries made 0 (R104). -/
def Station.deliver (st : Station) (a : Attempt) : Station :=
  if !st.markStands a.place then st
  else if a.raisedAgain then st.setTries a.place 0
  else st.delivered a

/-- The claim that the failed CLAIM carried had been sent before (R40). -/
def Station.claimSent (st : Station) (m : MoverId) : Bool := ((st.entry? m).bind (·.claim)).any fun c => 1 ≤ c.sends

/-- A failed CLAIM ends its claim as DENIED(CLOSED), with CANCEL due when it had been sent before (R40, R98). -/
def Station.claimFailed (st : Station) (m : MoverId) (g : ZoneNo) : Station :=
  let sent := st.claimSent m
  let ended := st.denyClaim m g .closed
  if sent then ended.oweCancel m g else ended

/-- A delivery failure for its record (R98); tries made is 0 again in a send that stays due (R96). -/
def Station.failed (st : Station) (a : Attempt) : Station :=
  match a.ref, a.content with
  | .claim m, .claim _ g _ => st.claimFailed m g
  | .handover m, _ => st.endHandover m .handoverLost none
  | .present d, _ => st.clearMark (.present d) a.place
  | .loose, .orderReply .. =>
    if (st.sideOfAddress a.destination).isSome then st.setTries a.place 0
    else (st.clearMark .loose a.place).countLink fun c => { c with droppedReplies := raiseCounter c.droppedReplies 1 }
  | _, _ => st.setTries a.place 0

/-- A delivery failure (R96, R98): counted, the side toward a neighbour closed with reason LOST first, then the record's
part, if its mark still stands; one raised again during the attempt stays due (R104). -/
def Station.deliveryFailure (st : Station) (a : Attempt) : Station :=
  let counted := st.countLink fun c => { c with deliveryFailures := raiseCounter c.deliveryFailures 1 }
  let closed := match st.sideOfAddress a.destination with
    | some d => counted.closeSide d .lost
    | none => counted
  if !closed.markStands a.place then closed
  else if a.raisedAgain then closed.setTries a.place 0
  else closed.failed a

/-- An attempt of an acknowledged kind ends (R96). -/
def Station.endAcknowledged (st : Station) (a : Attempt) (delivered : Bool) : Station :=
  if delivered then st.deliver a
  else if 3 ≤ a.tries then st.deliveryFailure a
  else st.setTries a.place (a.tries + 1)

/-- A completed send of an unacknowledged kind (R96, R104): its mark is cleared unless it was raised again; at the end of
an ORDER's broadcast the origin checks its own table (R126). -/
def Station.complete (st : Station) (a : Attempt) : Station :=
  if !st.markStands a.place then st
  else if a.raisedAgain then st.setTries a.place 0
  else
    let cleared := st.clearMark a.ref a.place
    match a.ref with
    | .order tag => cleared.originCheck tag
    | _ => cleared

/-- The end of the attempt under way (R94, R96). -/
def Station.endAttempt (st : Station) (a : Attempt) (slot : SlotReading) : Station :=
  let idle := { st with attempt := none }
  let counted := if slot = .disturbed then
      idle.countLink fun c => { c with disturbedAttempts := raiseCounter c.disturbedAttempts 1 }
    else idle
  let ended := if a.content.acknowledged a.destination then counted.endAcknowledged a (slot = .dominant)
    else counted.complete a
  ended.retestIfFreed st

/-- ATTEMPT_END (R96). -/
def execAttemptEnd (slot : SlotReading) (s : State) : Host.Outcome State Fault Refusal :=
  .next (s.whenRunning s.station.attempt.isSome fun st =>
    match st.attempt with
    | none => st
    | some a => st.endAttempt a slot)

end Sys2Proof.Machine
end

