-- ==== Sys2Proof/Machine/Motion.lean ====
section
/-! DEFINITION. The Motion Engine's work on one entry at a control period expiry (R46 to R66, R88), with the claim and
handover timers (R40, R68), and the station's timers of the same expiry (R115, R117, R131). -/

namespace Sys2Proof.Machine

open Sys2Proof.Config

/-! ## Profile -/

/-- The stopping distance S(u) with accel a (R48). -/
def stopDistance (u a : Nat) : Nat := (u / a + 1) * u - a * (u / a) * (u / a + 1) / 2

/-- The new speed of a step (R50, parts 2 and 3): the first candidate whose stopping distance is at most L. -/
def nextSpeed (v a c limit : Nat) : Nat :=
  if stopDistance (min (v + a) c) a ≤ limit then min (v + a) c
  else if 1 ≤ v && stopDistance v a ≤ limit then v
  else if 1 ≤ v - a && stopDistance (v - a) a ≤ limit then v - a
  else if 1 ≤ v - a then v - a
  else min a limit

/-- The distance between two positions (R1). -/
def distance (p q : Position) : Nat := if p ≤ q then q - p else p - q

/-- A position moved by a distance along d. -/
def moved (p : Position) (d : Int) (s : Nat) : Position := if d = 1 then p + s else p - s

/-- The direction of a move's next step (R48): +1 when the target is above the setpoint and −1 otherwise. A STOPPING
entry in motion keeps the sense of its velocity, since a stop may carry it past the target (R60; log entry 13). An entry
without an active move looks along −1 (log entry 14). -/
def Entry.direction (e : Entry) : Int :=
  if e.motion = .stopping && e.velocity ≠ 0 then (if 0 < e.velocity then 1 else -1)
  else if e.active.any fun r => e.setpoint < r.target then 1 else -1

/-- The zone counts toward the hold distance (R49, R66, R83): an own zone held by the mover (with the own address as
holder station for a HANDING entry), or a remote holding whose side is OPEN (toward the handing target for a HANDING
entry). -/
def Station.countsHeld (st : Station) (e : Entry) (g : ZoneNo) : Bool :=
  match st.localIndex g with
  | some k => st.holds e.id k && (e.state ≠ .handing || (st.zone? k).any (·.state.heldFor st.own))
  | none =>
    e.remote.contains g && st.sideOpen (st.sideOfZone g) &&
      (e.state ≠ .handing || e.handover.any fun h => st.sideOfAddress h.target = some (st.sideOfZone g))

/-- The last zone of the run of adjacent held zones from `g` upward. -/
def runUp (held : ZoneNo → Bool) : Nat → ZoneNo → ZoneNo
  | 0, g => g
  | n + 1, g => if held (g + 1) then runUp held n (g + 1) else g

/-- The last zone of the run of adjacent held zones from `g` downward. -/
def runDown (held : ZoneNo → Bool) : Nat → ZoneNo → ZoneNo
  | 0, g => g
  | n + 1, g => if 1 ≤ g && held (g - 1) then runDown held n (g - 1) else g

/-- The hold distance H in direction d (R49). -/
def Station.holdDistance (st : Station) (e : Entry) (d : Int) : Nat :=
  let f := front e.setpoint d
  if f < 0 then 0
  else match zoneOf f.toNat with
    | none => 0
    | some g =>
      if st.countsHeld e g then
        let fuel := st.zones.length + e.remote.length
        if d = 1 then zoneEnd (runUp (st.countsHeld e) fuel g) - f.toNat
        else f.toNat - zoneStart (runDown (st.countsHeld e) fuel g)
      else 0

/-! ## Timers of an entry -/

/-- A remote claim at its eighth period (R40): sent again, or ended as NO_ANSWER after three sendings. A SENT or QUEUED
claim whose side has closed runs out to NO_ANSWER whatever its sends made (R40; log entry 53). -/
def Station.claimTimedOut (st : Station) (m : MoverId) (c : Claim) : Station :=
  if c.phase ≠ .deferred && (3 ≤ c.sends || !st.sideOpen (st.sideOfZone c.zone)) then
    (st.denyClaim m c.zone .noAnswer).oweCancel m c.zone
  else (st.modifyEntry m fun e =>
    { e with claim := some { c with phase := .toSend, periods := 8 }, claimDue := some st.freshDue }).bump

/-- The claim timer of an entry at an expiry (R40). A claim in TO_SEND is not timed, also while a closed side holds its
CLAIM (R100). -/
def Station.claimTimer (st : Station) (m : MoverId) : Station :=
  match (st.entry? m).bind (·.claim) with
  | none => st
  | some c =>
    if (st.localIndex c.zone).isSome || c.phase = .toSend then st
    else if 8 ≤ c.periods + 1 then st.claimTimedOut m c
    else st.modifyEntry m fun e => { e with claim := some { c with periods := c.periods + 1 } }

/-- The next expiry's count makes the entry's claim timer reach 8 (R40). -/
def Station.claimTimerEnds (st : Station) (m : MoverId) : Bool :=
  ((st.entry? m).bind (·.claim)).any fun c =>
    (st.localIndex c.zone).isNone && c.phase ≠ .toSend && 8 ≤ c.periods + 1

/-- An AWAITING handover at its eighth period (R68): sent again, or lost after three delivered sendings (R81). -/
def Station.handoverTimedOut (st : Station) (m : MoverId) (h : Handover) : Station :=
  if 3 ≤ h.attempts then st.endHandover m .handoverLost none
  else (st.modifyEntry m fun e =>
    { e with handover := some { h with phase := .ready st.freshDue, waiting := 8 } }).bump

/-- The handover timer of an entry at an expiry (R68). -/
def Station.handoverTimer (st : Station) (m : MoverId) : Station :=
  match (st.entry? m).bind (·.handover) with
  | none => st
  | some h =>
    if h.phase ≠ .awaiting then st
    else if 8 ≤ h.waiting + 1 then st.handoverTimedOut m h
    else st.modifyEntry m fun e => { e with handover := some { h with waiting := h.waiting + 1 } }

/-- The next expiry's count makes the entry's handover timer reach 8 (R68). -/
def Station.handoverTimerEnds (st : Station) (m : MoverId) : Bool :=
  ((st.entry? m).bind (·.handover)).any fun h => h.phase = .awaiting && 8 ≤ h.waiting + 1

/-! ## Part 1: following error (R62) -/

/-- The following-error check is made for the entry (R62). -/
def Station.followChecked (st : Station) (e : Entry) : Bool :=
  e.runsMotion && !e.motion.isFaulted && e.actual.isSome && st.inOwnSpan e.setpoint

/-- The distance between actual position and setpoint exceeds the follow limit (R62). -/
def Station.followExceeded (st : Station) (e : Entry) : Bool :=
  e.actual.any fun a => st.conf.followLimit < distance a e.setpoint

/-- Part 1 of R47 for an entry (R62). -/
def Station.followCheck (st : Station) (m : MoverId) : Station :=
  match st.entry? m with
  | none => st
  | some e =>
    if !st.followChecked e then st
    else if !st.followExceeded e then st.modifyEntry m fun e => { e with followCount := 0 }
    else
      let counted := st.modifyEntry m fun e => { e with followCount := e.followCount + 1 }
      if 3 ≤ e.followCount + 1 then counted.enterFault m .follow none else counted

/-- The next check makes the entry's follow count reach 3 (R62). -/
def Station.followEnds (st : Station) (m : MoverId) : Bool :=
  (st.entry? m).any fun e => st.followChecked e && st.followExceeded e && 3 ≤ e.followCount + 1

/-! ## Part 2: the timed states (R51, R52) -/

/-- The dwell remaining falls; at 0 the entry is IDLE and its active move absent (R51). -/
def Station.dwellTick (st : Station) (m : MoverId) : Station :=
  st.modifyEntry m fun e =>
    if e.dwellRemaining ≤ 1 then { e with dwellRemaining := 0, motion := .idle, active := none }
    else { e with dwellRemaining := e.dwellRemaining - 1 }

/-- The active move ends with ZONE_DENIED (R55); an entry taken in ZONE_WAIT without an active move ends without a report
(log entry 14). -/
def Station.endDenied (st : Station) (m : MoverId) : Station :=
  match st.entry? m with
  | none => st
  | some e =>
    let ended := (st.endMove m).modifyEntry m fun e => { e with motion := .idle }
    match e.active, e.denied with
    | some r, some (g, reason) => ended.report (.zoneDenied m g r.tag reason)
    | _, _ => ended

/-- The active move ends with ZONE_TIMEOUT (R52); an entry taken in ZONE_WAIT without an active move ends without a report
(log entry 14). -/
def Station.endTimeout (st : Station) (m : MoverId) : Station :=
  match st.entry? m with
  | none => st
  | some e =>
    let ended := (st.endMove m).modifyEntry m fun e => { e with motion := .idle }
    match e.active with
    | some r => ended.report (.zoneTimeout m (e.claim.map (·.zone)) r.tag)
    | none => ended

/-- The zone wait count one higher, staying at 65536 (R52). -/
def Entry.waitedOnce (e : Entry) : Nat := min (e.zoneWaitCount + 1) 65536

/-- The count of one more wait exceeds the zone wait limit; a limit of 0 sets no limit (R52). -/
def Station.waitExceeds (st : Station) (e : Entry) : Bool :=
  1 ≤ st.conf.zoneWaitLimit && st.conf.zoneWaitLimit < e.waitedOnce

/-- Part 2 for a ZONE_WAIT entry (R52, R66). -/
def Station.zoneWaitTick (st : Station) (m : MoverId) : Station :=
  match st.entry? m with
  | none => st
  | some e =>
    if 0 < st.holdDistance e e.direction then st.modifyEntry m fun e => { e with motion := .moving, velocity := 0 }
    else if e.state = .resident && e.denied.isSome then st.endDenied m
    else
      let counted := st.modifyEntry m fun e => { e with zoneWaitCount := e.waitedOnce }
      if e.state = .resident && st.waitExceeds e then counted.endTimeout m else counted

/-- Part 2 at the next expiry ends the entry's move with ZONE_TIMEOUT (R52). -/
def Station.zoneWaitEnds (st : Station) (m : MoverId) : Bool :=
  (st.entry? m).any fun e => e.state = .resident && e.motion = .zoneWait && e.denied.isNone &&
    st.holdDistance e e.direction = 0 && st.waitExceeds e

/-- Part 2 of R47. -/
def Station.timedPart (st : Station) (m : MoverId) : Station :=
  match (st.entry? m).map Entry.motion with
  | some .dwell => st.dwellTick m
  | some .zoneWait => st.zoneWaitTick m
  | _ => st

/-! ## Part 3: the start test (R48) -/

/-- The start test is met (R48). -/
def Station.startTest (st : Station) (e : Entry) : Bool :=
  e.motion = .idle && !e.queue.isEmpty && st.drive = .on && st.mode = .online && st.bodyHeld e e.setpoint

/-- The head of the queue becomes the active move (R48). -/
def Entry.startMove (e : Entry) : Entry :=
  { e with active := e.queue.head?, queue := e.queue.tail, motion := .moving, velocity := 0, zoneWaitCount := 0,
           denied := none }

/-- Part 3 of R47. -/
def Station.startPart (st : Station) (m : MoverId) : Station :=
  st.modifyEntry m fun e => if st.startTest e then e.startMove else e

/-! ## Part 4: the step (R50, R60) -/

/-- The move completes at its target (R51). -/
def Station.completeMove (st : Station) (m : MoverId) (r : MoveRecord) : Station :=
  match st.entry? m with
  | none => st
  | some e =>
    let dwell := r.dwell.getD 0
    let ended := (st.endMove m).modifyEntry m fun e =>
      if 1 ≤ dwell then { e with motion := .dwell, dwellRemaining := dwell, active := some r }
      else { e with motion := .idle }
    if r.report && e.state = .resident then ended.report (.moveDone m r.tag) else ended

/-- The hold limit is reached short of the target (R50 part 6, R66). -/
def Station.reachHoldLimit (st : Station) (m : MoverId) : Station :=
  match st.entry? m with
  | none => st
  | some e =>
    if e.state = .resident && e.denied.isSome then st.endDenied m
    else st.modifyEntry m fun e => { e with velocity := 0, motion := .zoneWait }

/-- The step of a MOVING entry along its active move (R50). -/
def Station.stepMoving (st : Station) (m : MoverId) : Station :=
  match st.entry? m with
  | none => st
  | some e =>
    match e.active with
    | none => st
    | some r =>
      let d := e.direction
      let hold := st.holdDistance e d
      let remaining := distance e.setpoint r.target
      let limit := min remaining hold
      let s := min (nextSpeed e.velocity.natAbs r.accel r.speed limit) limit
      let stepped := st.modifyEntry m fun e =>
        { e with setpoint := moved e.setpoint d s, velocity := d * (s : Int) }
      if s = remaining then stepped.completeMove m r
      else if s = hold then stepped.reachHoldLimit m
      else stepped

/-- The step of a STOPPING entry with the configured stop accel (R60). -/
def Station.stepStopping (st : Station) (m : MoverId) : Station :=
  match st.entry? m with
  | none => st
  | some e =>
    let d := e.direction
    let s := min (e.velocity.natAbs - st.conf.stopAccel) (st.holdDistance e d)
    if s = 0 then
      let ended := (st.endMove m).modifyEntry m fun e => { e with motion := .idle, flushedAtStop := 0 }
      if e.state = .resident then ended.report (.moveAborted m (e.active.map (·.tag)) e.flushedAtStop) else ended
    else st.modifyEntry m fun e => { e with setpoint := moved e.setpoint d s, velocity := d * (s : Int) }

/-- Part 4 of R47. -/
def Station.stepPart (st : Station) (m : MoverId) : Station :=
  match (st.entry? m).map Entry.motion with
  | some .moving => st.stepMoving m
  | some .stopping => st.stepStopping m
  | _ => st

/-! ## Part 5: the transfer point (R67) -/

/-- The side that a setpoint outside the own span lies beyond (R67). -/
def Station.handingSide (st : Station) (p : Position) : Side := if st.segmentEnd ≤ p then .upper else .lower

/-- The entry passes the transfer point (R67). -/
def Station.transferTest (st : Station) (e : Entry) : Bool :=
  e.state = .resident && !e.motion.isFaulted && !st.inOwnSpan e.setpoint &&
    st.sideOpen (st.handingSide e.setpoint) && e.takenDue.isNone

/-- The entry becomes HANDING with its handover record (R67, R68). -/
def Station.becomeHanding (st : Station) (e : Entry) : Station :=
  (st.modifyEntry e.id fun e =>
    { e with state := .handing, claim := none, claimDue := none,
             handover := some { target := st.neighbourAt (st.handingSide e.setpoint), travelled := e.claim,
                                phase := .ready st.freshDue, attempts := 0, waiting := 0 } }).bump

/-- Part 5 of R47. -/
def Station.transferPart (st : Station) (m : MoverId) : Station :=
  match st.entry? m with
  | none => st
  | some e => if st.transferTest e then st.becomeHanding e else st

/-! ## Part 6: releases behind the body (R56) -/

/-- Part 6 of R47 for a RESIDENT entry that was stepped along d: held zones behind the body are released, in order from
the rear: the remote ones of the rear side, the own ones, the remote ones of the other side. -/
def Station.releasePart (st : Station) (m : MoverId) (d : Int) : Station :=
  match st.entry? m with
  | none => st
  | some e =>
    if e.state ≠ .resident then st
    else
      let rear : Side := if d = 1 then .lower else .upper
      let own := (st.holdings m).filter fun k => behindBody e.setpoint d (st.globalZone k)
      let remote := fun side => (st.remoteOn e side).filter (behindBody e.setpoint d)
      ((st.releaseRemote m (remote rear)).releaseOwn m (if d = 1 then own else own.reverse)).releaseRemote m
        (remote (otherSide rear))

/-! ## Part 7: the next claim (R53, R54) -/

/-- Distance from a position to a zone. -/
def zoneDistance (p : Position) (g : ZoneNo) : Nat :=
  if p < zoneStart g then zoneStart g - p else if zoneEnd g < p then p - zoneEnd g else 0

/-- The nearest of some zones to a position (R53). -/
def nearestTo (p : Position) : List ZoneNo → Option ZoneNo
  | [] => none
  | g :: gs =>
    match nearestTo p gs with
    | none => some g
    | some h => if zoneDistance p h < zoneDistance p g then some h else some g

/-- The needed zones of a MOVING or ZONE_WAIT entry, nearest along d first (R53). -/
def Entry.movingNeeds (e : Entry) (r : MoveRecord) : List ZoneNo :=
  let d := e.direction
  let horizon := min (distance e.setpoint r.target)
    (stopDistance (min (e.velocity.natAbs + r.accel) r.speed) r.accel + 3000)
  let h := moved e.setpoint d horizon
  if d = 1 then zonesBetween (e.setpoint - bodyBelow) (h + bodyAbove)
  else (zonesBetween (h - bodyBelow) (e.setpoint + bodyAbove)).reverse

/-- The nearest zone needed and not held (R53). -/
def Station.nearestNeeded (st : Station) (e : Entry) : Option ZoneNo :=
  match e.motion, e.active with
  | .moving, some r | .zoneWait, some r => (e.movingNeeds r).find? fun g => !st.heldZone e g
  | .idle, _ | .dwell, _ => nearestTo e.setpoint ((bodyZones e.setpoint).filter fun g => !st.heldZone e g)
  | _, _ => none

/-- Part 7 of R47 for a RESIDENT entry (R54). A zone beyond the clip is recorded as denied only where a claim could be
raised: with no claim outstanding, no CANCEL due and no denied zone (log entry 56). -/
def Station.claimPart (st : Station) (m : MoverId) : Station :=
  match st.entry? m with
  | none => st
  | some e =>
    if e.state ≠ .resident || e.claim.isSome || e.cancelDue.isSome || e.denied.isSome then st
    else match st.nearestNeeded e with
      | none => st
      | some g =>
        if st.beyondClip g then st.modifyEntry m fun e => { e with denied := some (g, .outOfSegment) }
        else if (st.localIndex g).isSome then st.claimOwn m g
        else st.claimRemote m g

/-! ## Part 8: demand and TRACK (R64, R88) -/

/-- A number limited to a range. -/
def limited (low high x : Int) : Int := max low (min high x)

/-- The demand of an entry whose velocity before the step was `before` (R64). -/
def Station.demandOf (st : Station) (e : Entry) (before : Int) : Int :=
  let error : Int := match e.actual with
    | some a => (e.setpoint : Int) - (a : Int)
    | none => 0
  limited (-1000) 1000 (((st.conf.gain : Int) * error).tdiv 64 + 8 * (e.velocity - before))

/-- The side whose span the body at a position touches, where the side is not EDGE (R88). -/
def Station.trackSide (st : Station) (p : Position) : Option Side :=
  if st.bodyTouches p .lower && st.lowerSide.state ≠ .edge then some .lower
  else if st.bodyTouches p .upper && st.upperSide.state ≠ .edge then some .upper
  else none

/-- TRACK raised for an entry at an expiry, or its due mark cleared (R88). -/
def Station.trackPart (st : Station) (m : MoverId) : Station :=
  match st.entry? m with
  | none => st
  | some e =>
    match st.trackSide e.setpoint, e.trackDue with
    | none, none => st
    | none, some _ => st.modifyEntry m fun e => { e with trackDue := none }
    | some d, none => (st.modifyEntry m fun e => { e with trackDue := some (d, st.freshDue) }).bump
    | some d, some (d', due) =>
      if d = d' then st.raisedAgain due.place
      else (st.modifyEntry m fun e => { e with trackDue := some (d, st.freshDue) }).bump

/-- Part 8 of R47. -/
def Station.demandPart (st : Station) (m : MoverId) (before : Int) : Station :=
  match st.entry? m with
  | none => st
  | some e => st.writeDemand m (st.demandOf e before)

/-! ## Shadows (R65) -/

/-- The setpoint of a shadow advanced by its velocity; what leaves the track is a free value (log entry 11). -/
def shadowAdvanced (p : Position) (v : Int) : Position :=
  if 0 ≤ (p : Int) + v ∧ (p : Int) + v ≤ maxPosition then ((p : Int) + v).toNat
  else shadowOffTrack p v % (maxPosition + 1)

/-- A shadow at an expiry (R12, R65). -/
def Shadow.tick (w : Shadow) : Shadow :=
  if !w.valid then w
  else if w.age < 3 then { w with setpoint := shadowAdvanced w.setpoint w.velocity, age := w.age + 1 }
  else { w with valid := false }

/-- The shadow of the VISITOR is lost at the next expiry (R89). -/
def Entry.shadowEnds (e : Entry) : Bool := e.state = .visitor && e.shadow.any fun w => w.valid && 3 ≤ w.age

/-- The demand a shadow gives (R65). -/
def shadowDemand : Option Shadow → Int
  | some w => if w.valid then w.demand else 0
  | none => 0

/-- The work of an expiry for a VISITOR (R65). -/
def Station.visitorWork (st : Station) (m : MoverId) : Station :=
  match st.entry? m with
  | none => st
  | some e =>
    let shadow := e.shadow.map Shadow.tick
    let advanced := (st.modifyEntry m fun e => { e with shadow := shadow }).writeDemand m (shadowDemand shadow)
    if e.shadowEnds then advanced.report (.trackLoss m) else advanced

/-! ## The work of one entry -/

/-- Parts 2 to 8 of R47 for an entry not FAULTED. -/
def Station.parts (st : Station) (m : MoverId) (e : Entry) : Station :=
  let timed := st.timedPart m
  let dwellEnded := e.motion = .dwell && (timed.entry? m).any (·.motion = .idle)
  let started := if dwellEnded then timed else timed.startPart m
  let stepping := (started.entry? m).any fun e => e.motion = .moving || e.motion = .stopping
  let d := ((started.entry? m).map Entry.direction).getD 1
  let transferred := (started.stepPart m).transferPart m
  let released := if stepping then transferred.releasePart m d else transferred
  (released.claimPart m).demandPart m e.velocity

/-- The work of an expiry for a RESIDENT or HANDING entry (R47), TRACK last (R88), also at the expiry whose check faults
the entry (R62; log entry 54). -/
def Station.ownerWork (st : Station) (m : MoverId) : Station :=
  let checked := st.followCheck m
  (match checked.entry? m with
    | none => checked
    | some e => if e.motion.isFaulted then checked else checked.parts m e).trackPart m

/-- The work of an expiry for one entry (R46, R47): its timers first. -/
def Station.workEntry (st : Station) (m : MoverId) : Station :=
  let timed := (st.claimTimer m).handoverTimer m
  match (timed.entry? m).map Entry.state with
  | some .visitor => timed.visitorWork m
  | some .resident | some .handing => timed.ownerWork m
  | some .stray | none => timed

/-! ## The station's timers of an expiry -/

/-- The join count at an expiry in JOINING (R115). -/
def Station.joinTick (st : Station) : Station :=
  if st.mode ≠ .joining then st
  else
    let counted := { st with joinCount := st.joinCount + 1 }
    if 100 ≤ st.joinCount + 1 || (st.lowerSide.state = .edge && st.upperSide.state = .edge) then counted.becomeOnline
    else counted

/-- The next expiry's count makes the join count reach 100 (R115). -/
def Station.joinEnds (st : Station) : Bool := st.mode = .joining && 100 ≤ st.joinCount + 1

/-- The probe count of a side at an expiry (R117). -/
def Station.probeTick (st : Station) (d : Side) : Station :=
  let s := st.side d
  if s.state ≠ .closed .lost then st
  else if 200 ≤ s.probeCount + 1 then (st.setSide d { s with probeCount := 0 }).owePresent d true
  else st.setSide d { s with probeCount := s.probeCount + 1 }

/-- The next expiry's count makes the probe count of a side reach 200 (R117). -/
def Station.probeEnds (st : Station) (d : Side) : Bool :=
  (st.side d).state = .closed .lost && 200 ≤ (st.side d).probeCount + 1

/-- A pending order ends without a final reply (R131). -/
def PendingOrder.timeoutReport (o : PendingOrder) : ReportBody :=
  match o.retrySeen with
  | some n => .orderResult o.mover (some n) o.tag .inTransit
  | none => .orderResult o.mover none o.tag .notFound

/-- The next expiry's count ends the pending order (R131). -/
def PendingOrder.ends (o : PendingOrder) : Bool := o.due.isNone && 20 ≤ o.waiting + 1

/-- A pending order with one more period waited (R131). -/
def PendingOrder.wait (o : PendingOrder) : PendingOrder :=
  if o.due.isNone then { o with waiting := o.waiting + 1 } else o

/-- The order timers at an expiry, in table order (R131). -/
def Station.orderTick (st : Station) : Station :=
  let ended := st.orders.filter PendingOrder.ends
  { st with orders := (st.orders.filter fun o => !o.ends).map PendingOrder.wait,
            outbox := st.outbox ++ ended.map PendingOrder.timeoutReport }

/-- The period count one higher, from its highest value to 0 (R46). -/
def Station.countPeriod (st : Station) : Station := { st with periodCount := (st.periodCount + 1) % 4294967296 }

/-- The work of one expiry (R46): every entry in ascending mover ID, then the join count, the probe counts, the lower
side's first (log entry 41), and the order timers. -/
def Station.periodWork (st : Station) : Station :=
  ((((st.movers.foldl (fun st m => st.workEntry m) st).joinTick).probeTick .lower).probeTick .upper).orderTick

end Sys2Proof.Machine
end

