-- ==== Sys2Proof/Machine/Operands.lean ====
section
/-! DEFINITION. Operand forms: the ranges a command tests (R163), and the command that the bits of a port transaction
bring (R160, R161, R182). -/

namespace Sys2Proof.Machine

open Sys2Proof.Config

/-- A mover ID of a command lies in its range, 1 to 4095 (R124, R144). -/
def moverParamOk (m : Nat) : Bool := 1 ≤ m && m ≤ 4095

/-- A global zone of a command lies in its range, 0 to 5591 (R163). -/
def zoneParamOk (g : Nat) : Bool := g ≤ lastZone

/-- A page number lies in its range, 0 or 1 (R174). -/
def pageParamOk (p : Nat) : Bool := p ≤ 1

/-- The start value of STORE STAGE that means CONTINUE (R182). -/
def stageContinue : Nat := 255

/-- A STAGE start is an offset from 0 to 63 or CONTINUE (R176). -/
def stageStartOk (start : Nat) : Bool := start < pageSize || start = stageContinue

/-- The classes that a class byte names: bits 0 to 5 (R182). -/
def classSet (b : Nat) : BitVec 6 := BitVec.ofNat 6 b

/-- The clear-overflow mark of ACK FLAGS: bit 7 (R182). -/
def clearOverflowMark (b : Nat) : Bool := b / 128 % 2 = 1

/-- A list with each repeated ID kept at its first place only (R133). -/
def firstPlaces (ms : List MoverId) : List MoverId :=
  ms.foldl (fun kept m => if kept.contains m then kept else kept ++ [m]) []

/-- Mover IDs of two bytes each; none for an odd number of bytes (R182). -/
def moversOfBytes : List Byte → Option (List Nat)
  | [] => some []
  | a :: b :: rest => (moversOfBytes rest).map (num2 a b :: ·)
  | [_] => none

/-- The command of a code with its parameter bytes; none where the code names no command or the bytes are fewer or more
than it needs (R161, R182). -/
def commandOfCode (seq code : Nat) (params : List Byte) : Option Instr :=
  match code, params with
  | 0x01, [] => some (.status seq)
  | 0x02, [n] => some (.readReports seq n.toNat)
  | 0x03, [c] => some (.ackFlags seq c.toNat)
  | 0x04, [m] => some (.setMask seq m.toNat)
  | 0x05, [t, a] => some (.setMitigation seq t.toNat a.toNat)
  | 0x10, m1 :: m0 :: rest => (moveParamsOfBytes rest).map (.move seq (num2 m1 m0))
  | 0x11, [m1, m0] => some (.abort seq (num2 m1 m0))
  | 0x12, [] => some (.halt seq)
  | 0x13, [m1, m0] => some (.clear seq (num2 m1 m0))
  | 0x14, [m1, m0] => some (.adopt seq (num2 m1 m0))
  | 0x15, [m1, m0] => some (.forget seq (num2 m1 m0))
  | 0x20, [z1, z0] => some (.block seq (num2 z1 z0))
  | 0x21, [z1, z0] => some (.unblock seq (num2 z1 z0))
  | 0x22, [] => some (.driveOn seq)
  | 0x23, [] => some (.driveOff seq)
  | 0x30, [m1, m0] => some (.readMover seq (num2 m1 m0))
  | 0x31, [z1, z0] => some (.readZone seq (num2 z1 z0))
  | 0x32, [] => some (.readSides seq)
  | 0x33, mode :: rest => (moversOfBytes rest).map (.watchSet seq mode.toNat)
  | 0x34, [] => some (.maintenance seq)
  | 0x40, [p] => some (.storeRead seq p.toNat)
  | 0x41, [p] => some (.storeErase seq p.toNat)
  | 0x42, start :: data => some (.storeStage seq start.toNat data)
  | 0x43, [p] => some (.storeCommit seq p.toNat)
  | 0x44, [] => some (.storeClearBuffer seq)
  | 0x4F, [] => some (.restart seq)
  | _, _ => none

/-- The command of a message's whole bytes; `overlong` says that more than 128 bytes were clocked (R160, R161). A length
of 0 or no byte is a null message, an overlong one too (log entry 46); any other failing is a malformed message. -/
def commandOfMessage (bs : List Byte) (overlong : Bool) : Instr :=
  match bs with
  | [] => .nullMessage
  | n :: rest =>
    if n = 0 then .nullMessage
    else match rest with
      | q :: code :: params =>
        if n.toNat = bs.length ∧ !overlong then
          (commandOfCode q.toNat code.toNat params).getD (.malformedMessage (some q.toNat))
        else .malformedMessage (some q.toNat)
      | [q] => .malformedMessage (some q.toNat)
      | [] => .malformedMessage none

/-- The parameter bytes of a move record as a MOVE message holds them (R178). -/
def moveParamsBytes (p : MoveParams) : List Byte :=
  be2 p.tag ++ be3 p.target ++ be2 p.speed ++ [byte p.accel] ++ be2 p.dwell ++ [byte p.flags]

/-- The sequence number, the command code and the parameter bytes of a command that a whole message brings (R182); none
for what no message names. -/
def codeOfCommand : Instr → Option (Nat × Nat × List Byte)
  | .status q => some (q, 0x01, [])
  | .readReports q n => some (q, 0x02, [byte n])
  | .ackFlags q c => some (q, 0x03, [byte c])
  | .setMask q m => some (q, 0x04, [byte m])
  | .setMitigation q t a => some (q, 0x05, [byte t, byte a])
  | .move q m p => some (q, 0x10, be2 m ++ moveParamsBytes p)
  | .abort q m => some (q, 0x11, be2 m)
  | .halt q => some (q, 0x12, [])
  | .clear q m => some (q, 0x13, be2 m)
  | .adopt q m => some (q, 0x14, be2 m)
  | .forget q m => some (q, 0x15, be2 m)
  | .block q g => some (q, 0x20, be2 g)
  | .unblock q g => some (q, 0x21, be2 g)
  | .driveOn q => some (q, 0x22, [])
  | .driveOff q => some (q, 0x23, [])
  | .readMover q m => some (q, 0x30, be2 m)
  | .readZone q g => some (q, 0x31, be2 g)
  | .readSides q => some (q, 0x32, [])
  | .watchSet q mode ms => some (q, 0x33, byte mode :: ms.flatMap be2)
  | .maintenance q => some (q, 0x34, [])
  | .storeRead q p => some (q, 0x40, [byte p])
  | .storeErase q p => some (q, 0x41, [byte p])
  | .storeStage q start data => some (q, 0x42, byte start :: data)
  | .storeCommit q p => some (q, 0x43, [byte p])
  | .storeClearBuffer q => some (q, 0x44, [])
  | .restart q => some (q, 0x4F, [])
  | _ => none

/-- The message of a command: length, sequence number, code, parameters (R161, R182). -/
def messageOfCommand (c : Instr) : Option (List Byte) :=
  (codeOfCommand c).map fun p => byte (3 + p.2.2.length) :: byte p.1 :: byte p.2.1 :: p.2.2

/-- The command that a port transaction brings, from the bits sampled at SDI: whole bytes are gathered up to 128, a
partial byte is discarded, and bits after the 128th byte make the message malformed (R160, R161). -/
def commandOfTransaction (bits : List Bool) : Instr :=
  commandOfMessage ((gatherBytes bits).take 128) (decide (1024 < bits.length))

end Sys2Proof.Machine
end

