-- ==== Sys2Proof/Machine/Orders.lean ====
section
/-! DEFINITION. MOVE, ABORT, CLEAR and HALT at the command port (R45, R58, R59, R63, R124), and the forming of an order
(R125). -/

namespace Sys2Proof.Machine

open Sys2Proof.Config

/-- The tag a new order takes (R125): the next-tag value, or the first after it that no entry holds. -/
def Station.freeTag (st : Station) : Nat :=
  (((List.range orderTableSize).map fun i => (st.nextTag + i) % 256).find? fun t =>
    !st.orders.any (·.tag = t)).getD st.nextTag

/-- The pending order table with one more order, its broadcast due (R125). -/
def Station.addOrder (st : Station) (m : MoverId) (kind : OrderKind) : Station :=
  ({ st with
      orders := st.orders ++ [{ tag := st.freeTag, mover := m, kind, due := some st.freshDue, waiting := 0,
                                retrySeen := none }],
      nextTag := (st.freeTag + 1) % 256 } : Station).bump

/-- An order formed, ACCEPTED with its tag; BUSY while all 4 entries are in use (R125). -/
def State.formOrder (s : State) (seq : Nat) (m : MoverId) (kind : OrderKind) : State :=
  if orderTableSize ≤ s.station.orders.length then s.answerPlain seq .busy
  else (s.commit (s.station.addOrder m kind)).answer seq .accepted (.number s.station.freeTag)

/-- MOVE, ABORT or CLEAR decided on the mover's entry (R124); `data` is what an OK for the entry carries. -/
def State.orderCommand (s : State) (seq : Nat) (m : MoverId) (kind : OrderKind) (data : Entry → ReplyData) : State :=
  match s.station.entry? m with
  | none => s.formOrder seq m kind
  | some e =>
    match e.state with
    | .visitor => s.formOrder seq m kind
    | .handing => s.refuse seq .inTransit
    | .stray => s.refuse seq .stray
    | .resident =>
      match s.station.orderRefusal e kind with
      | some r => s.refuse seq r
      | none => (s.commit (s.station.applyKind m kind)).answer seq .ok (data e)

/-- The order commands are taken in ONLINE alone (R124, R164). -/
def State.takesOrders (s : State) : Bool := s.station.mode = .online

/-- MOVE (R45, R124): the record's ranges are tested with the mover's. -/
def execMove (seq mover : Nat) (params : MoveParams) (s : State) : Host.Outcome State Fault Refusal :=
  .next (s.decide seq s.takesOrders (moverParamOk mover && (MoveParams.toRecord params).isSome)
    (match MoveParams.toRecord params with
      | some r => s.orderCommand seq mover (.move r) fun _ => .empty
      | none => s))

/-- ABORT (R58, R124): an OK carries the number flushed. -/
def execAbort (seq mover : Nat) (s : State) : Host.Outcome State Fault Refusal :=
  .next (s.decide seq s.takesOrders (moverParamOk mover)
    (s.orderCommand seq mover .abort fun e => .number e.queue.length))

/-- CLEAR (R63, R124). -/
def execClear (seq mover : Nat) (s : State) : Host.Outcome State Fault Refusal :=
  .next (s.decide seq s.takesOrders (moverParamOk mover) (s.orderCommand seq mover .clear fun _ => .empty))

/-- HALT treats the entry: RESIDENT in MOVING, ZONE_WAIT or DWELL (R59). -/
def Entry.haltable (e : Entry) : Bool :=
  e.state = .resident && (e.motion = .moving || e.motion = .zoneWait || e.motion = .dwell)

/-- The movers HALT treats (R59), in ascending ID (log entry 41). -/
def Station.halted (st : Station) : List MoverId := (st.entries.filter Entry.haltable).map Entry.id

/-- HALT (R59): each as by an ABORT; OK with the entries treated and the HANDING entries passed over. -/
def execHalt (seq : Nat) (s : State) : Host.Outcome State Fault Refusal :=
  .next (s.decide seq s.takesOrders true
    ((s.commit (s.station.halted.foldl Station.applyAbort s.station)).answer seq .ok
      (.numbers s.station.halted.length (s.station.entries.filter fun e => e.state = .handing).length)))

/-- ORDER_TIMEOUT (R131): the pending order of that tag reaches 20 periods waiting and ends. -/
def Station.endWaiting (st : Station) (tag : Nat) : Station :=
  match st.orders.find? fun o => o.tag = tag with
  | none => st
  | some o => (st.endOrder tag).report o.timeoutReport

/-- ORDER_TIMEOUT (R131). -/
def execOrderTimeout (tag : Nat) (s : State) : Host.Outcome State Fault Refusal :=
  .next (s.whenRunning ((s.station.orders.find? fun o => o.tag = tag).any PendingOrder.ends)
    fun st => st.endWaiting tag)

end Sys2Proof.Machine
end

