-- ==== Sys2Proof/Machine/PortCommands.lean ====
section
/-! DEFINITION. The Command Port's own commands: null and malformed messages (R161), STATUS (R165), reports, flags,
masks and mitigation (R169 to R171), and WATCH SET (R133). -/

namespace Sys2Proof.Machine

open Sys2Proof.Config

/-- NULL_MESSAGE (R161): the response buffer keeps its contents, and they were shifted out (R160). -/
def execNullMessage (s : State) : Host.Outcome State Fault Refusal :=
  .next { s with port := { s.port with shifted := responseBytes s.port.response } }

/-- MALFORMED_MESSAGE (R161): BAD_PARAM, echoing the second byte when one was gathered and 0 otherwise. -/
def execMalformedMessage (second : Option Nat) (s : State) : Host.Outcome State Fault Refusal :=
  .next (s.answerPlain (second.getD 0) .badParam)

/-- Entries in use in an entry state (R165). -/
def Station.countEntries (st : Station) (x : EntryState) : Nat := (st.entries.filter fun e => e.state = x).length

/-- Zones in a state that passes a test (R165). -/
def Station.countZones (st : Station) (p : ZoneState → Bool) : Nat := (st.zones.filter fun z => p z.state).length

/-- The items of STATUS as they stand (R165). -/
def State.statusCopy (s : State) : StatusCopy :=
  let st := s.station
  { mode := st.mode, record := st.record, periodCount := st.periodCount,
    joinCount := if st.mode = .joining then some st.joinCount else none,
    drive := st.drive, latch := st.latch, overCurrent := st.overCurrent, supplyLow := st.supplyLow,
    strays := st.countEntries .stray, visitors := st.countEntries .visitor,
    residents := st.countEntries .resident, handings := st.countEntries .handing,
    zonesFree := st.countZones fun z => z = .free, zonesHeld := st.countZones ZoneState.isHeld,
    zonesBlocked := st.countZones fun z => z = .blocked, waitingClaims := st.claimTotal,
    lowerState := st.lowerSide.state, lowerTripped := st.lowerSide.trippedMark,
    upperState := st.upperSide.state, upperTripped := st.upperSide.trippedMark,
    rxFrames := st.rxQueue.length, rxStalled := st.rxStalled, sendsInUse := st.sendList.length,
    linkCounters := st.linkCounters, ordersInUse := st.orders.length, nextTag := st.nextTag,
    watchMode := st.watchMode, watchCount := st.watchList.length, expectedScan := st.expectedScan,
    sightingCounters := st.sightingCounters, busy := s.store.busy, mark0 := s.store.mark0, mark1 := s.store.mark1,
    reports := s.reports.queue.length, nextSeq := s.reports.nextSeq, overflow := s.reports.overflow,
    flags := s.reports.flags, masks := s.reports.masks, threshold := s.reports.threshold, age := s.reports.age,
    timerCount := s.reports.timerCount, timerRunning := s.reports.timerRunning,
    lineAsserted := s.reports.lineAsserted }

/-- STATUS (R165). -/
def execStatus (seq : Nat) (s : State) : Host.Outcome State Fault Refusal :=
  .next (s.decide seq s.station.mode.loaded true (s.answer seq .ok (.status s.statusCopy)))

/-- READ REPORTS (R169). -/
def execReadReports (seq count : Nat) (s : State) : Host.Outcome State Fault Refusal :=
  .next (s.decide seq s.station.mode.started (1 ≤ count && count ≤ 8)
    (({ s with reports := s.reports.remove count } : State).answer seq .ok
      (.reports (s.reports.queue.take count) (s.reports.queue.length - count) s.reports.overflow)))

/-- ACK FLAGS (R170): the classes are bits 0 to 5 of the class byte, clear-overflow is bit 7 (R182). -/
def execAckFlags (seq classes : Nat) (s : State) : Host.Outcome State Fault Refusal :=
  let r := s.reports.ack (classSet classes) (clearOverflowMark classes)
  .next (s.decide seq s.station.mode.started true (({ s with reports := r } : State).answer seq .ok (.flags r.flags)))

/-- SET MASK (R170). -/
def execSetMask (seq masks : Nat) (s : State) : Host.Outcome State Fault Refusal :=
  .next (s.decide seq s.station.mode.started true
    (({ s with reports := s.reports.setMasks (classSet masks) } : State).answerPlain seq .ok))

/-- SET MITIGATION (R171). -/
def execSetMitigation (seq threshold age : Nat) (s : State) : Host.Outcome State Fault Refusal :=
  .next (s.decide seq s.station.mode.started (threshold ≤ 31 && age ≤ 255)
    (({ s with reports := s.reports.setMitigation threshold age } : State).answerPlain seq .ok))

/-- The list and mode of a WATCH SET lie in their ranges (R133, R182). -/
def watchParamsOk (mode : Nat) (movers : List Nat) : Bool :=
  (watchModeOfCode mode).isSome && movers.length ≤ watchListSize && movers.all moverParamOk

/-- WATCH SET (R133): the whole table is replaced at once. -/
def execWatchSet (seq mode : Nat) (movers : List Nat) (s : State) : Host.Outcome State Fault Refusal :=
  let kept := firstPlaces movers
  .next (s.decide seq s.station.mode.started (watchParamsOk mode movers)
    (({ s with station := { s.station with watchMode := (watchModeOfCode mode).getD .off, watchList := kept } } :
      State).answer seq .ok (.number kept.length)))

/-- AGE_TIMER_EXPIRY (R171): the count reaches the age at an expiry, and the line is decided again. -/
def execAgeTimerExpiry (s : State) : Host.Outcome State Fault Refusal :=
  .next (if s.station.running && s.reports.timerEnds then { s with reports := s.reports.tick } else s)

end Sys2Proof.Machine
end

