-- ==== Sys2Proof/Machine/Sightings.lean ====
section
/-! DEFINITION. Scans: whether one is worked, its sequence number, its sightings and the loss counting (R135 to R143). -/

namespace Sys2Proof.Machine

open Sys2Proof.Config

/-- The station with the sighting counters changed. -/
def Station.countSighting (st : Station) (f : SightingCounters → SightingCounters) : Station :=
  { st with sightingCounters := f st.sightingCounters }

/-! ## Loss counting (R142) -/

/-- The loss count of a RESIDENT or HANDING entry whose setpoint lies in the own span one higher (R142): at 4 one not
FAULTED enters FAULTED(LOST), and one FAULTED stays at 4 without its actual position. -/
def Station.loseOwned (st : Station) (e : Entry) : Station :=
  let count := min (e.lossCount + 1) 4
  let counted := st.modifyEntry e.id fun e => { e with lossCount := count }
  if count < 4 then counted
  else if e.motion.isFaulted then counted.modifyEntry e.id fun e => { e with actual := none }
  else counted.enterFault e.id .lost none

/-- The loss count of a STRAY one higher (R142): at 4 the entry is freed and offered (R28). -/
def Station.loseStray (st : Station) (e : Entry) : Station :=
  if 4 ≤ e.lossCount + 1 then st.freeEntry e.id
  else st.modifyEntry e.id fun e => { e with lossCount := e.lossCount + 1 }

/-- The loss counting of one mover's entry (R142). -/
def Station.loseMover (st : Station) (m : MoverId) : Station :=
  match st.entry? m with
  | none => st
  | some e =>
    match e.state with
    | .stray => st.loseStray e
    | .visitor => st
    | .resident | .handing => if st.inOwnSpan e.setpoint then st.loseOwned e else st

/-- One loss counting of every entry of the table but those sighted, all its work in ascending mover ID: R142 orders the
reports so, and leaves the order of a STRAY's freeing and offer (R28) and another entry's fault open (log entry 41). -/
def Station.loseAll (st : Station) (sighted : List MoverId) : Station :=
  (st.movers.filter fun m => !sighted.contains m).foldl Station.loseMover st

/-- Several loss countings one after another (R138). -/
def Station.loseTimes (st : Station) : Nat → Station
  | 0 => st
  | n + 1 => (st.loseAll []).loseTimes n

/-- The next loss counting makes the mover's loss count reach 4 (R142). -/
def Station.lossEnds (st : Station) (m : MoverId) : Bool :=
  (st.entry? m).any fun e => e.lossCount = 3 && match e.state with
    | .stray => true
    | .visitor => false
    | .resident | .handing => st.inOwnSpan e.setpoint

/-! ## Sightings (R139 to R141) -/

/-- The position of a sighting: origin plus the local position (R139). -/
def Station.sightedAt (st : Station) (localPos : Nat) : Position := st.conf.origin + localPos

/-- A sighting of a tag with no entry (R141). -/
def Station.sightUnknown (st : Station) (m : MoverId) (p : Position) : Station :=
  if st.tableFull then
    st.countSighting fun c => { c with untrackedSightings := raiseCounter c.untrackedSightings 1 }
  else (st.putEntry { Entry.blank m .stray with actual := some p }).report (.straySeen m (p / zoneLength))

/-- A sighting applied to the mover's entry as it stands (R140). -/
def Station.sight (st : Station) (m : MoverId) (p : Position) : Station :=
  match st.entry? m with
  | none => st.sightUnknown m p
  | some e =>
    let seen := st.modifyEntry m fun e => { e with actual := some p, lossCount := 0 }
    match e.state with
    | .resident | .stray => seen
    | .handing => if st.inOwnSpan e.setpoint then seen else st
    | .visitor => st

/-- The sighting is dropped (R139); `seen` lists the tags of this scan not dropped before it. -/
def Station.dropsSighting (st : Station) (seen : List MoverId) (s : Nat × Nat) : Bool :=
  s.1 = 0 || 4095 < s.1 || zoneLength * st.coilCount ≤ s.2 || seen.contains s.1

/-- The sightings of a scan in their order, with the tags applied (R139). -/
def Station.readSightings (st : Station) (seen : List MoverId) : List (Nat × Nat) → Station × List MoverId
  | [] => (st, seen)
  | s :: rest =>
    if st.dropsSighting seen s then
      (st.countSighting fun c => { c with droppedSightings := raiseCounter c.droppedSightings 1 }).readSightings seen
        rest
    else (st.sight s.1 (st.sightedAt s.2)).readSightings (s.1 :: seen) rest

/-! ## The scan (R137, R138) -/

/-- One more scan error (R143). -/
def Station.scanError (st : Station) : Station :=
  st.countSighting fun c => { c with scanErrors := raiseCounter c.scanErrors 1 }

/-- A bad scan (R137): counted, and worked as one scan with no sightings. -/
def Station.badScan (st : Station) : Station :=
  let lost := st.scanError.loseAll []
  { lost with expectedScan := lost.expectedScan.map fun q => (q + 1) % 256 }

/-- The gap of a scan's number to the one expected, 0 to 255 counting upward; 255 is the repeat (R138). -/
def scanGap (expected seq : Nat) : Nat := (seq + 256 - expected) % 256

/-- A scan that is not bad and not a repeat, after a gap of g (R138 to R142). -/
def Station.goodScan (st : Station) (scan : Scan) (gap : Nat) : Station :=
  let missed := st.countSighting fun c => { c with missedScans := raiseCounter c.missedScans gap }
  let read := (missed.loseTimes gap).readSightings [] scan.sightings
  { read.1.loseAll read.2 with expectedScan := some ((scan.seq + 1) % 256) }

/-- A scan worked in JOINING or ONLINE (R137, R138). -/
def Station.workScan (st : Station) (scan : Option Scan) : Station :=
  match scan, st.expectedScan with
  | none, _ => st.badScan
  | some c, none => st.goodScan c 0
  | some c, some q => if scanGap q c.seq = 255 then st.scanError else st.goodScan c (scanGap q c.seq)

/-- Scans are worked in JOINING and ONLINE (R136). -/
def Mode.worksScans : Mode → Bool
  | .joining | .online => true
  | .loading | .unconfigured | .maintenance => false

/-- SCAN (R136): the bits sampled while the strobe was asserted, gathered into whole bytes (R135). A scan whose strobe was
asserted before a reset and released after it is discarded uncounted. -/
def execScan (bits : StrobedBits) (s : State) : Host.Outcome State Fault Refusal :=
  .next (if s.station.mode.worksScans && !bits.spansReset then
      s.commit (s.station.workScan (scanOfBytes (gatherBytes bits.sampled)))
    else s)

/-- LOSS_COUNT_EXPIRY (R142): the loss counting that makes the mover's count reach 4. -/
def execLossCountExpiry (mover : Nat) (s : State) : Host.Outcome State Fault Refusal :=
  .next (if s.station.mode.worksScans && s.station.lossEnds mover then s.commit (s.station.loseMover mover) else s)

end Sys2Proof.Machine
end

