-- ==== Sys2Proof/Machine/StoreCommands.lean ====
section
/-! DEFINITION. The store commands and the completion of an operation (R174 to R177). -/

namespace Sys2Proof.Machine

open Sys2Proof.Config

/-- A store write while JOINING or ONLINE is answered STATE (R174). -/
def Mode.refusesWrites : Mode → Bool
  | .joining | .online => true
  | .loading | .unconfigured | .maintenance => false

/-- A store command decided in the order of R174: the station states of R164, its parameters, then as a write, then the
busy store. -/
def State.storeCommand (s : State) (seq : Nat) (write inRange : Bool) (own : State) : State :=
  s.decide seq s.station.mode.loaded inRange
    (if write && s.station.mode.refusesWrites then s.answerPlain seq .state
     else if s.store.busy.isSome then s.answerPlain seq .busy
     else own)

/-- STORE READ (R177). -/
def execStoreRead (seq page : Nat) (s : State) : Host.Outcome State Fault Refusal :=
  .next (s.storeCommand seq false (pageParamOk page)
    (s.answer seq .ok (.page ((s.store.page page).bytes 0 pageSize) (s.store.mark page))))

/-- The state with the store replaced. -/
def State.withStore (s : State) (store : Store) : State := { s with store := store }

/-- STORE ERASE (R175). -/
def execStoreErase (seq page : Nat) (s : State) : Host.Outcome State Fault Refusal :=
  .next (s.storeCommand seq true (pageParamOk page)
    ((s.withStore (s.store.start .erase page)).answerPlain seq .ok))

/-- STORE COMMIT (R175). -/
def execStoreCommit (seq page : Nat) (s : State) : Host.Outcome State Fault Refusal :=
  .next (s.storeCommand seq true (pageParamOk page)
    ((s.withStore (s.store.start .commit page)).answerPlain seq .ok))

/-- STORE CLEAR BUFFER (R176). -/
def execStoreClearBuffer (seq : Nat) (s : State) : Host.Outcome State Fault Refusal :=
  .next (s.storeCommand seq true true ((s.withStore s.store.clearBuffer).answerPlain seq .ok))

/-- The store with its staging offset at the start named (R176). -/
def Store.setStart (s : Store) (start : Nat) : Store := if start = stageContinue then s else { s with offset := start }

/-- A STAGE: the offset, then each data byte in order (R176). -/
def Store.stage (s : Store) (start : Nat) (data : List Byte) : Store :=
  data.foldl Store.stageByte (s.setStart start)

/-- The bytes taken by a STAGE (R176): those written at distinct offsets. -/
def Store.taken (s : Store) (start : Nat) (data : List Byte) : Nat :=
  min data.length (pageSize - (s.setStart start).offset)

/-- STORE STAGE (R176): OK with the bytes taken and the offset after the command. -/
def execStoreStage (seq start : Nat) (data : List Byte) (s : State) : Host.Outcome State Fault Refusal :=
  .next (s.storeCommand seq true (stageStartOk start)
    ((s.withStore (s.store.stage start data)).answer seq .ok
      (.numbers (s.store.taken start data) (s.store.stage start data).offset)))

/-- STORE_OPERATION_COMPLETE (R175): the operation in flight completes and STORE_DONE is reported. -/
def execStoreOperationComplete (s : State) : Host.Outcome State Fault Refusal :=
  .next (match s.store.busy with
    | none => s
    | some (op, p) => (s.commit (s.station.report (.storeDone op p))).withStore (s.store.complete op p))

end Sys2Proof.Machine
end

