-- ==== Sys2Proof/Machine/TableCommands.lean ====
section
/-! DEFINITION. The commands on the Mover Table and the zone table: ADOPT (R144, R145), FORGET (R16, R17), READ MOVER
(R18), BLOCK and UNBLOCK (R36, R37), READ ZONE (R38). -/

namespace Sys2Proof.Machine

open Sys2Proof.Config

/-! ## ADOPT -/

/-- Test 5 of R144 fails the position: outside the own span, a body part that touches no zone, or a zone touched beyond
an EDGE side. -/
def Station.outOfReach (st : Station) (p : Position) : Bool :=
  !st.inOwnSpan p || maxZonedPosition < p + bodyAbove ||
    (bodyZones p).any fun g => (st.localIndex g).isNone && (st.side (st.sideOfZone g)).state = .edge

/-- The own zones that the body at `p` touches, by local index, ascending. -/
def Station.ownTouched (st : Station) (p : Position) : List Nat := (bodyZones p).filterMap st.localIndex

/-- Test 6 of R144 fails for a zone: HELD, BLOCKED, or with a claim waiting. -/
def Zone.inUse (z : Zone) : Bool := z.state ≠ .free || !z.waiting.isEmpty

/-- The adoption (R13, R145). -/
def Station.adopt (st : Station) (m : MoverId) (p : Position) : Station :=
  let entered := st.modifyEntry m fun _ =>
    { Entry.blank m .resident with owner := some st.own, setpoint := p, actual := some p }
  (st.ownTouched p).foldl
    (fun st k => st.modifyZone k fun z => { z with state := .held m st.own, grantOwed := none }) entered

/-- Tests 4 to 7 of R144 on the mover's entry. -/
def State.adoptEntry (s : State) (seq : Nat) (e : Entry) : State :=
  if e.state ≠ .stray then s.refuse seq .notStray
  else match e.actual with
    | none => s.refuse seq .outOfSegment
    | some p =>
      if s.station.outOfReach p then s.refuse seq .outOfSegment
      else if (s.station.ownTouched p).any fun k => (s.station.zone? k).any Zone.inUse then s.refuse seq .zoneBusy
      else (s.commit (s.station.adopt e.id p)).answer seq .ok (.number (s.station.ownTouched p).length)

/-- ADOPT (R144, R145). -/
def execAdopt (seq mover : Nat) (s : State) : Host.Outcome State Fault Refusal :=
  .next (s.decide seq (s.station.mode = .online) (moverParamOk mover)
    (match s.station.entry? mover with
      | none => s.answerPlain seq .notFound
      | some e => s.adoptEntry seq e))

/-! ## FORGET -/

/-- The zones of a RESIDENT's remote holdings and RELEASE due, ascending (R16). -/
def Entry.owedZones (e : Entry) : List ZoneNo :=
  (e.remote ++ e.releaseZones .lower ++ e.releaseZones .upper).foldr insertZone []

/-- The outstanding claim's zone when FORGET owes a CANCEL for it (R16): a neighbour zone with sends made of 1 or more,
or with an attempt of its CLAIM under way. -/
def Station.sentClaim (st : Station) (e : Entry) : Option ZoneNo :=
  e.claim.bind fun c =>
    if (st.localIndex c.zone).isNone && (1 ≤ c.sends || st.claimUnderWay e.id c.zone) then some c.zone else none

/-- The neighbour whose segment holds a zone. -/
def Station.neighbourOf (st : Station) (g : ZoneNo) : Address := st.neighbourAt (st.sideOfZone g)

/-- The loose sends of a forgetting, in the order of R17. -/
def Station.forgetSends (st : Station) (e : Entry) : List (Address × Frame) :=
  match e.state with
  | .visitor => (st.claimedZones e.id).map fun k => (e.owner.getD 63, .denied e.id (st.globalZone k) .state)
  | .resident =>
    (e.takenDue.toList.map fun p => (p.1, .taken e.id)) ++
    ((runsOf e.owedZones).map fun r => (st.neighbourOf r.1, .release e.id r.1 r.2)) ++
    ((e.cancelDue.toList.map Prod.fst ++ (st.sentClaim e).toList).map fun g => (st.neighbourOf g, .cancel e.id g))
  | .stray | .handing => []

/-- The claims that a forgetting removes (R17): those of a RESIDENT's or VISITOR's mover (log entry 38). -/
def Entry.claimsGo (e : Entry) : Bool := e.state = .resident || e.state = .visitor

/-- The zones a forgetting frees, and those whose FREE list loses its head (R17, R27), in ascending local index
(log entry 41). -/
def Station.forgetZones (st : Station) (e : Entry) : List Nat :=
  st.localZones.filter fun k => st.holds e.id k || (e.claimsGo && (st.freeHead? k).any (·.mover = e.id))

/-- The second and third part of a forgetting: zones, claims and entry gone (R17). -/
def Station.forgetRecords (st : Station) (e : Entry) : Station :=
  let freed := (st.holdings e.id).foldl Station.freeZone st
  let unclaimed : Station :=
    if e.claimsGo then
      { freed with zones := freed.zones.map fun (z : Zone) => { z with waiting := z.waiting.filter (·.mover ≠ e.id) } }
    else freed
  unclaimed.eraseEntry e.id

/-- A forgetting that is taken, in the order of R17; the heads are examined last. -/
def Station.forget (st : Station) (e : Entry) : Station :=
  let sent := (st.forgetSends e).foldl (fun st p => st.placeSend p.1 p.2) st
  ((sent.forgetRecords e).examine (st.forgetZones e)).offerEntry

/-- FORGET on the mover's entry (R16). -/
def State.forgetEntry (s : State) (seq : Nat) (e : Entry) : State :=
  if e.state = .handing then s.refuse seq .inTransit
  else if s.station.sendsFree < (s.station.forgetSends e).length then s.answerPlain seq .busy
  else (s.commit (s.station.forget e)).answer seq .ok
    (.numbers (s.station.holdings e.id).length (s.station.forgetSends e).length)

/-- FORGET (R16, R17). -/
def execForget (seq mover : Nat) (s : State) : Host.Outcome State Fault Refusal :=
  .next (s.decide seq s.station.mode.started (moverParamOk mover)
    (match s.station.entry? mover with
      | none => s.answerPlain seq .notFound
      | some e => s.forgetEntry seq e))

/-! ## READ MOVER -/

/-- The first own zone held by a mover, by its global number, and the count (R18). -/
def Station.ownRun (st : Station) (m : MoverId) : ZoneNo × Nat :=
  ((((st.holdings m).head?).map st.globalZone).getD 65535, (st.holdings m).length)

/-- The data of READ MOVER (R18): the list for 0, the entry's items otherwise. -/
def State.readMover (s : State) (seq mover : Nat) : State :=
  if mover = 0 then s.answer seq .ok (.moverList (s.station.entries.map fun e => (e.id, e.state)))
  else match s.station.entry? mover with
    | none => s.answerPlain seq .notFound
    | some e => s.answer seq .ok (.mover e (s.station.ownRun mover).1 (s.station.ownRun mover).2)

/-- READ MOVER (R18). -/
def execReadMover (seq mover : Nat) (s : State) : Host.Outcome State Fault Refusal :=
  .next (s.decide seq s.station.mode.started (mover = 0 || moverParamOk mover) (s.readMover seq mover))

/-! ## Zones -/

/-- A FREE zone blocked: every claim removed and told, then the VISITORs tested in list order (R36; log entry 41). -/
def Station.blockZone (st : Station) (k : Nat) (claims : List WaitClaim) : Station :=
  let blocked := st.modifyZone k fun z => { z with state := .blocked, waiting := [] }
  let told := claims.foldl (fun st c => st.tellDenied k c .blocked) blocked
  claims.foldl (fun st c => st.testVisitor c.mover) told

/-- BLOCK on own zone k (R36). -/
def State.blockCommand (s : State) (seq k : Nat) (z : Zone) : State :=
  match z.state with
  | .held _ _ => s.refuse seq .zoneBusy
  | .blocked => s.answer seq .ok (.number 0)
  | .free =>
    if s.station.sendsFree < (z.waiting.filter fun c => c.station ≠ s.station.own).length then
      s.answerPlain seq .busy
    else (s.commit (s.station.blockZone k z.waiting)).answer seq .ok (.number z.waiting.length)

/-- The own zone that a command names by its global number, with its local index. -/
def Station.zoneNamed (st : Station) (g : ZoneNo) : Option (Nat × Zone) :=
  (st.localIndex g).bind fun k => (st.zone? k).map fun z => (k, z)

/-- BLOCK (R36). -/
def execBlock (seq zone : Nat) (s : State) : Host.Outcome State Fault Refusal :=
  .next (s.decide seq s.station.mode.started (zoneParamOk zone)
    (match s.station.zoneNamed zone with
      | none => s.refuse seq .outOfSegment
      | some (k, z) => s.blockCommand seq k z))

/-- UNBLOCK on own zone k (R37): a BLOCKED zone becomes FREE with an empty list, any other stays. -/
def State.unblockCommand (s : State) (seq k : Nat) (z : Zone) : State :=
  match z.state with
  | .blocked => (s.commit (s.station.modifyZone k fun _ => Zone.fresh)).answerPlain seq .ok
  | .free | .held _ _ => s.answerPlain seq .ok

/-- UNBLOCK (R37). -/
def execUnblock (seq zone : Nat) (s : State) : Host.Outcome State Fault Refusal :=
  .next (s.decide seq s.station.mode.started (zoneParamOk zone)
    (match s.station.zoneNamed zone with
      | none => s.refuse seq .outOfSegment
      | some (k, z) => s.unblockCommand seq k z))

/-- READ ZONE (R38). -/
def execReadZone (seq zone : Nat) (s : State) : Host.Outcome State Fault Refusal :=
  .next (s.decide seq s.station.mode.started (zoneParamOk zone)
    (match s.station.zoneNamed zone with
      | none => s.refuse seq .outOfSegment
      | some (k, z) => s.answer seq .ok (.zone k z)))

end Sys2Proof.Machine
end

