-- ==== Sys2Proof/Machine/Timers.lean ====
section
/-! DEFINITION. The control period expiry (R46) and the timers and counts that reach their ends at one. Each of these
events is part of the expiry that reaches it; taken alone, it does that part for the mover or side it names when the
next counting reaches the end, and nothing otherwise (log entries 3 and 4). -/

namespace Sys2Proof.Machine

/-- The age timer at an expiry whose work left the reports as `worked`: it counts when it ran before the expiry, so that a
timer that the expiry's own reports start stands at 0 after it (R171, section 10.7; log entry 39). -/
def Reports.aged (before worked : Reports) : Reports := if before.timerRunning then worked.tick else worked

/-- The work of an expiry with the test of a stalled head before it or after it (R46, R109; log entry 10), the age timer
last of the timers (R171). -/
def State.expiry (s : State) (retestFirst : Bool) : State :=
  let counted := s.station.countPeriod
  let worked := s.commit (if retestFirst then counted.retestHead.periodWork else counted.periodWork)
  let aged := { worked with reports := s.reports.aged worked.reports, free := s.free + 1 }
  if retestFirst || !aged.station.rxStalled then aged else aged.commit aged.station.retestHead

/-- CONTROL_PERIOD_EXPIRY (R46): the control period timer runs in JOINING, ONLINE and MAINTENANCE. -/
def execControlPeriodExpiry (s : State) : Host.Outcome State Fault Refusal :=
  .next (if s.station.running then s.expiry (Config.retestBeforeWork s.free) else s)

/-- FOLLOW_COUNT_EXPIRY (R62): the follow count reaches 3, FAULTED with cause FOLLOW. -/
def execFollowCountExpiry (mover : Nat) (s : State) : Host.Outcome State Fault Refusal :=
  .next (s.whenRunning (s.station.followEnds mover) fun st => st.followCheck mover)

/-- The dwell remaining of the mover reaches 0 at its next count (R51). -/
def Station.dwellEnds (st : Station) (m : MoverId) : Bool :=
  (st.entry? m).any fun e => e.runsMotion && e.motion = .dwell && e.dwellRemaining ≤ 1

/-- DWELL_END (R51). -/
def execDwellEnd (mover : Nat) (s : State) : Host.Outcome State Fault Refusal :=
  .next (s.whenRunning (s.station.dwellEnds mover) fun st => st.dwellTick mover)

/-- ZONE_TIMEOUT (R52). -/
def execZoneTimeout (mover : Nat) (s : State) : Host.Outcome State Fault Refusal :=
  .next (s.whenRunning (s.station.zoneWaitEnds mover) fun st => st.zoneWaitTick mover)

/-- CLAIM_ANSWER_TIMEOUT (R40). -/
def execClaimAnswerTimeout (mover : Nat) (s : State) : Host.Outcome State Fault Refusal :=
  .next (s.whenRunning (s.station.claimTimerEnds mover) fun st => st.claimTimer mover)

/-- HANDOVER_ANSWER_TIMEOUT (R68). -/
def execHandoverAnswerTimeout (mover : Nat) (s : State) : Host.Outcome State Fault Refusal :=
  .next (s.whenRunning (s.station.handoverTimerEnds mover) fun st => st.handoverTimer mover)

/-- TRACK_LOSS (R65, R89). -/
def execTrackLoss (mover : Nat) (s : State) : Host.Outcome State Fault Refusal :=
  .next (s.whenRunning ((s.station.entry? mover).any Entry.shadowEnds) fun st => st.visitorWork mover)

/-- JOIN_COUNT_EXPIRY (R115). -/
def execJoinCountExpiry (s : State) : Host.Outcome State Fault Refusal :=
  .next (s.whenRunning s.station.joinEnds Station.joinTick)

/-- PROBE_COUNT_EXPIRY (R117). -/
def execProbeCountExpiry (side : Side) (s : State) : Host.Outcome State Fault Refusal :=
  .next (s.whenRunning (s.station.probeEnds side) fun st => st.probeTick side)

end Sys2Proof.Machine
end

