-- ==== Sys2Proof/Machine/Dispatch.lean ====
section
/-! DEFINITION. The command dispatch: one arm per constructor of Instr, each one call of its meaning. -/

namespace Sys2Proof.Machine

def exec (i : Instr) (s : State) : Host.Outcome State Fault Refusal :=
  match i with
  | .pinReset => Sys2Proof.Machine.execPinReset s
  | .nullMessage => Sys2Proof.Machine.execNullMessage s
  | .malformedMessage second => Sys2Proof.Machine.execMalformedMessage second s
  | .status seq => Sys2Proof.Machine.execStatus seq s
  | .readReports seq count => Sys2Proof.Machine.execReadReports seq count s
  | .ackFlags seq classes => Sys2Proof.Machine.execAckFlags seq classes s
  | .setMask seq masks => Sys2Proof.Machine.execSetMask seq masks s
  | .setMitigation seq threshold age => Sys2Proof.Machine.execSetMitigation seq threshold age s
  | .move seq mover params => Sys2Proof.Machine.execMove seq mover params s
  | .abort seq mover => Sys2Proof.Machine.execAbort seq mover s
  | .clear seq mover => Sys2Proof.Machine.execClear seq mover s
  | .halt seq => Sys2Proof.Machine.execHalt seq s
  | .adopt seq mover => Sys2Proof.Machine.execAdopt seq mover s
  | .forget seq mover => Sys2Proof.Machine.execForget seq mover s
  | .block seq zone => Sys2Proof.Machine.execBlock seq zone s
  | .unblock seq zone => Sys2Proof.Machine.execUnblock seq zone s
  | .driveOn seq => Sys2Proof.Machine.execDriveOn seq s
  | .driveOff seq => Sys2Proof.Machine.execDriveOff seq s
  | .readMover seq mover => Sys2Proof.Machine.execReadMover seq mover s
  | .readZone seq zone => Sys2Proof.Machine.execReadZone seq zone s
  | .readSides seq => Sys2Proof.Machine.execReadSides seq s
  | .watchSet seq mode movers => Sys2Proof.Machine.execWatchSet seq mode movers s
  | .maintenance seq => Sys2Proof.Machine.execMaintenance seq s
  | .storeRead seq page => Sys2Proof.Machine.execStoreRead seq page s
  | .storeErase seq page => Sys2Proof.Machine.execStoreErase seq page s
  | .storeStage seq start data => Sys2Proof.Machine.execStoreStage seq start data s
  | .storeCommit seq page => Sys2Proof.Machine.execStoreCommit seq page s
  | .storeClearBuffer seq => Sys2Proof.Machine.execStoreClearBuffer seq s
  | .restart seq => Sys2Proof.Machine.execRestart seq s
  | .storeOperationComplete => Sys2Proof.Machine.execStoreOperationComplete s
  | .controlPeriodExpiry => Sys2Proof.Machine.execControlPeriodExpiry s
  | .followCountExpiry mover => Sys2Proof.Machine.execFollowCountExpiry mover s
  | .dwellEnd mover => Sys2Proof.Machine.execDwellEnd mover s
  | .zoneTimeout mover => Sys2Proof.Machine.execZoneTimeout mover s
  | .claimAnswerTimeout mover => Sys2Proof.Machine.execClaimAnswerTimeout mover s
  | .handoverAnswerTimeout mover => Sys2Proof.Machine.execHandoverAnswerTimeout mover s
  | .trackLoss mover => Sys2Proof.Machine.execTrackLoss mover s
  | .joinCountExpiry => Sys2Proof.Machine.execJoinCountExpiry s
  | .probeCountExpiry side => Sys2Proof.Machine.execProbeCountExpiry side s
  | .orderTimeout tag => Sys2Proof.Machine.execOrderTimeout tag s
  | .ageTimerExpiry => Sys2Proof.Machine.execAgeTimerExpiry s
  | .scan bits => Sys2Proof.Machine.execScan bits s
  | .lossCountExpiry mover => Sys2Proof.Machine.execLossCountExpiry mover s
  | .tripInputActive input => Sys2Proof.Machine.execTripInputActive input s
  | .pwmTurn => Sys2Proof.Machine.execPwmTurn s
  | .deadtimeElapsed coil switch => Sys2Proof.Machine.execDeadtimeElapsed coil switch s
  | .frameReceived bits => Sys2Proof.Machine.execFrameReceived bits s
  | .presentFrame => Sys2Proof.Machine.execPresentFrame s
  | .noticeFrame => Sys2Proof.Machine.execNoticeFrame s
  | .claimFrame => Sys2Proof.Machine.execClaimFrame s
  | .cancelFrame => Sys2Proof.Machine.execCancelFrame s
  | .releaseFrame => Sys2Proof.Machine.execReleaseFrame s
  | .grantFrame => Sys2Proof.Machine.execGrantFrame s
  | .queuedFrame => Sys2Proof.Machine.execQueuedFrame s
  | .deniedFrame => Sys2Proof.Machine.execDeniedFrame s
  | .deferredFrame => Sys2Proof.Machine.execDeferredFrame s
  | .handoverFrame => Sys2Proof.Machine.execHandoverFrame s
  | .takenFrame => Sys2Proof.Machine.execTakenFrame s
  | .overheardTaken => Sys2Proof.Machine.execOverheardTaken s
  | .refusedFrame => Sys2Proof.Machine.execRefusedFrame s
  | .trackFrame => Sys2Proof.Machine.execTrackFrame s
  | .orderFrame => Sys2Proof.Machine.execOrderFrame s
  | .orderReplyFrame => Sys2Proof.Machine.execOrderReplyFrame s
  | .transmitStart rivals => Sys2Proof.Machine.execTransmitStart rivals s
  | .attemptEnd slot => Sys2Proof.Machine.execAttemptEnd slot s
  | .tripInputInactive input => Sys2Proof.Machine.execTripInputInactive input s
  | .pwmCompareReached coil => Sys2Proof.Machine.execPwmCompareReached coil s
  | .loadingEnd => Sys2Proof.Machine.execLoadingEnd s

end Sys2Proof.Machine
end

