-- ==== Sys2Proof/Machine/Step.lean ====
section
/-! DEFINITION. One step of the block: the command at the front of the queue, or one coil clock when none waits. -/

namespace Sys2Proof.Machine

/-- One step: the command at the front of the queue is taken and run on the state with the queue's rest; on an empty
queue one coil clock passes (log entry 2). -/
def step (s : State) : Host.Outcome State Fault Refusal :=
  match s.pending with
  | [] => .next { s with station := s.station.coilClock }
  | c :: rest => exec c { s with pending := rest }

/-- The state with the command that the word spells put at the front of its queue; unchanged where it spells none. -/
def State.withFetchWord (s : State) (nbits w : Nat) : State :=
  match decodeTableWord nbits w with
  | some c => { s with pending := c :: s.pending }
  | none => s

end Sys2Proof.Machine
end

