-- ==== Sys2Proof/Safety.lean ====
section
/-! DEFINITION. What statements about the part are made of: the invariant of a step, what the end of a move gives
up and releases (R57), the table of R164 and the ranges of R163 as predicates on commands, the ranges of a frame's fields
(R179 to R181), and a frame standing ready to be handed on (R107). -/

namespace Sys2Proof.Machine

open Sys2Proof.Config

/-! ## The invariant -/

/-- The report state agrees with R166 to R172: the queue's limit and its unbroken sequence numbers, the counters'
ranges, the REPORT line where the rules put it, and the age timer running only while an unmasked flag waits for it. -/
structure Reports.Consistent (r : Reports) : Prop where
  roomy : r.queue.length ≤ reportQueueSize
  numbered : ∀ i, ∀ x ∈ r.queue[i]?, (x.seq + (r.queue.length - i)) % 65536 = r.nextSeq % 65536
  nextInRange : r.nextSeq < 65536
  overflowInRange : r.overflow ≤ 255
  idleWithoutFlag : r.anyUnmasked = false → r.lineAsserted = false ∧ r.timerRunning = false
  assertedWhenDue : r.anyUnmasked = true → r.threshold ≤ r.queue.length → r.lineAsserted = true
  timerStopsAtLine : r.lineAsserted = true → r.timerRunning = false
  timerBelowAge : r.timerRunning = true → r.timerCount < r.age

/-- The store's pages and buffer keep the canonical form, and the staging offset lies in 0 to 63 (R176). -/
structure Store.Canonical (s : Store) : Prop where
  page0 : s.page0.wf = true
  page1 : s.page1.wf = true
  buffer : s.buffer.wf = true
  offset : s.offset < pageSize

/-- No leg of the bridge has both switches on (R155, the shoot-through guard). -/
def Switches.noShootThrough (s : Switches) : Bool := !(s.ah && s.al) && !(s.bh && s.bl)

/-- A wait list by R21: at most 4 claims, never two for one mover, and never one by the zone's holder. -/
structure Zone.Tidy (z : Zone) : Prop where
  size : z.waiting.length ≤ waitListSize
  oneEach : (z.waiting.map WaitClaim.mover).Nodup
  notHolder : ∀ c ∈ z.waiting, z.state.heldBy c.mover = false

/-- The Mover Table by R5, at most 12 entries and a mover ID in at most one (the table stands in ascending ID), and the
wait lists by R21. -/
structure Station.Tabled (st : Station) : Prop where
  ascending : st.movers.Pairwise (· < ·)
  size : st.movers.length ≤ tableSize
  zones : ∀ z ∈ st.zones, z.Tidy

/-- The station's own collections as their rules say (R5, R21, R101, R106, R125, R133), no neighbour with the own address
(R112), no leg with both switches on (R155), and no report left over from an event (R166). -/
structure Station.Limited (st : Station) : Prop where
  tabled : st.Tabled
  neighbours : st.lowerSide.neighbour ≠ some st.own ∧ st.upperSide.neighbour ≠ some st.own
  rxQueue : st.rxQueue.length ≤ rxQueueSize
  sendList : st.sendList.length ≤ sendListSize
  orders : st.orders.length ≤ orderTableSize
  orderTags : (st.orders.map PendingOrder.tag).Nodup
  watchList : st.watchList.length ≤ watchListSize
  legs : ∀ c ∈ st.coils, c.outputs.noShootThrough = true
  outbox : st.outbox = []

/-- The invariant of the block: its report state, its store and its station's collections are as their rules say. -/
structure State.Safe (s : State) : Prop where
  reports : s.reports.Consistent
  store : s.store.Canonical
  station : s.station.Limited

/-! ## What work on entries, zones and sends leaves alone -/

/-- The fields of a station that the work on its entries, zones, sides and sends never changes. -/
structure Station.Kept where
  mode : Mode
  record : Option Record
  periodCount : Nat
  rxQueue : List RxFrame
  rxStalled : Bool
  linkCounters : LinkCounters
  ackDriven : Bool
  orders : List PendingOrder
  nextTag : Nat
  watchMode : WatchMode
  watchList : List MoverId
  expectedScan : Option Nat
  sightingCounters : SightingCounters
  drive : DriveState
  latch : Option TripCause
  overCurrent : BitVec 16
  supplyLow : Bool
  pwm : Pwm
  coilNumber : Nat
  zoneNumber : Nat
  sendBound : Nat
  lowerNeighbour : Option Address
  upperNeighbour : Option Address

/-- The kept fields of a station. -/
def Station.kept (st : Station) : Station.Kept :=
  { mode := st.mode, record := st.record, periodCount := st.periodCount, rxQueue := st.rxQueue,
    rxStalled := st.rxStalled, linkCounters := st.linkCounters, ackDriven := st.ackDriven, orders := st.orders,
    nextTag := st.nextTag, watchMode := st.watchMode, watchList := st.watchList, expectedScan := st.expectedScan,
    sightingCounters := st.sightingCounters, drive := st.drive, latch := st.latch, overCurrent := st.overCurrent,
    supplyLow := st.supplyLow, pwm := st.pwm, coilNumber := st.coils.length, zoneNumber := st.zones.length,
    sendBound := max st.sendList.length 8, lowerNeighbour := st.lowerSide.neighbour,
    upperNeighbour := st.upperSide.neighbour }

/-! ## The end of a move -/

/-- The mover of an entry waits for the own station in no own wait list but that of its outstanding local claim (R10, R21).
A neighbour's claim for it (R22) is no matter of this. -/
def Station.ClaimInPlace (st : Station) (e : Entry) : Prop :=
  ∀ p ∈ st.allClaims, p.2.mover = e.id → p.2.station = st.own →
    ∃ c : Claim, e.claim = some c ∧ st.localIndex c.zone = some p.1

/-- The outstanding claim of the mover of entry `e` is given up from `st` to `st'`, its entry then `e'` (R43, R57): a local
claim leaves its wait list (R32); a remote one that was sent sets CANCEL due when none was due. -/
structure Station.ClaimGivenUp (st st' : Station) (claim : Option Claim) (e e' : Entry) : Prop where
  ended : e'.claim = none
  withdrawn : ∀ (c : Claim) (k : Nat), claim = some c → st.localIndex c.zone = some k → st'.claims e.id k = false
  cancelled : ∀ c : Claim, claim = some c → st.localIndex c.zone = none → 1 ≤ c.sends → e.cancelDue = none →
    ∃ due, e'.cancelDue = some (c.zone, due)

/-- The zones held for the mover of entry `e` that the body at `p` does not touch are released from `st` to `st'`, its entry
then `e'`, and those under the body are kept (R57, R79): remote ones join RELEASE due toward their side (R10), own ones
leave HELD with their coil unassigned (R19, R31). -/
structure Station.ReleasedOffBody (st st' : Station) (p : Position) (e e' : Entry) : Prop where
  remote : ∀ d : Side, e'.remoteToward d = (e.remoteToward d).filter fun g => (bodyZones p).contains g
  owed : ∀ (d : Side) (g : ZoneNo), g ∈ e'.releaseZones d ↔
    g ∈ e.releaseZones d ∨ (g ∈ e.remote ∧ g ∉ bodyZones p ∧ st.sideOfZone g = d)
  kept : ∀ k ∈ st.holdings e.id, st.firstZone + k ∈ bodyZones p → st'.holds e.id k = true
  freed : ∀ (k : Nat) (z : Zone), st.zones[k]? = some z → z.state.heldBy e.id = true → st.firstZone + k ∉ bodyZones p →
    st'.holds e.id k = false ∧
    (z.waiting = [] → st'.zones[k]? = some { state := .free, grantOwed := none, waiting := [] }) ∧
    ∀ c : Coil, st'.coils[k]? = some c →
      c.assigned = none ∧ c.preloaded = .unassigned ∧ c.applied = .unassigned

/-! ## Commands of the port -/

/-- The sequence number of a command that a whole message brings (R161); none for the other rows. -/
def portSeq (c : Instr) : Option Nat := (codeOfCommand c).map (·.1)

/-- The station states in which R164 takes the command. -/
def takenIn (c : Instr) (m : Mode) : Bool :=
  match c with
  | .status _ | .storeRead .. | .storeErase .. | .storeStage .. | .storeCommit .. | .storeClearBuffer _
  | .restart _ => m = .unconfigured || m = .joining || m = .online || m = .maintenance
  | .move .. | .abort .. | .clear .. | .halt _ | .adopt .. | .maintenance _ => m = .online
  | .driveOn _ => m = .joining || m = .online
  | .readReports .. | .ackFlags .. | .setMask .. | .setMitigation .. | .forget .. | .block .. | .unblock ..
  | .driveOff _ | .readMover .. | .readZone .. | .readSides _ | .watchSet .. =>
    m = .joining || m = .online || m = .maintenance
  | _ => false

/-- The move record's fields lie in the ranges of R44. -/
def moveFieldsOk (p : MoveParams) : Bool :=
  p.tag ≤ 65535 && p.target ≤ 16777215 && 1 ≤ p.speed && p.speed ≤ 400 && 4 ≤ p.accel && p.accel ≤ 40 && p.dwell ≤ 65535

/-- Every parameter of the command lies in its range: R18, R44, R124, R133, R144, R163, R169, R171, R174, R176. -/
def paramsInRange : Instr → Bool
  | .readReports _ n => 1 ≤ n && n ≤ 8
  | .setMitigation _ t a => t ≤ 31 && a ≤ 255
  | .move _ m p => 1 ≤ m && m ≤ 4095 && moveFieldsOk p
  | .abort _ m | .clear _ m | .adopt _ m | .forget _ m => 1 ≤ m && m ≤ 4095
  | .readMover _ m => m ≤ 4095
  | .block _ g | .unblock _ g | .readZone _ g => g ≤ 5591
  | .watchSet _ mode ms => mode ≤ 2 && ms.length ≤ 16 && ms.all fun m => 1 ≤ m && m ≤ 4095
  | .storeRead _ p | .storeErase _ p | .storeCommit _ p => p ≤ 1
  | .storeStage _ start _ => start ≤ 63 || start = 255
  | _ => true

/-- The port after a command's response: it echoes the command's number, and the response before it was shifted out
(R160, R162). -/
def State.replied (s : State) (seq : Nat) (result : ResultCode) (data : ReplyData) : Port :=
  { response := some { seq, result, data }, shifted := responseBytes s.port.response }

/-! ## Frames -/

/-- The fields of a move record lie in the ranges of R44. -/
def MoveRecord.ok (r : MoveRecord) : Bool :=
  r.tag ≤ 65535 && r.target ≤ maxPosition && 1 ≤ r.speed && r.speed ≤ 400 && 4 ≤ r.accel && r.accel ≤ 40 &&
    r.dwell.all (· ≤ 65535)

/-- The trip cause of a drive state is a coil index 0 to 15 or SUPPLY (R178). -/
def DriveState.ok : DriveState → Bool
  | .off | .on | .tripped .supply => true
  | .tripped (.coil k) => k < 16

/-- An absent neighbour, or an address 0 to 62 (R178). -/
def neighbourOk (n : Option Address) : Bool := n.all (· ≤ 62)

/-- A run of a HANDOVER: 1 to 16 zones within 0 to 5591, or the empty run with first zone FFFFh (R180, R181). -/
def runOk (run : ZoneNo × Nat) : Bool :=
  (run.2 = 0 && run.1 = 65535) || (1 ≤ run.2 && run.2 ≤ 16 && run.1 + run.2 ≤ lastZone + 1)

/-- The fields of a HANDOVER lie in the ranges of R180 and R181. -/
def HandoverContent.ok (c : HandoverContent) : Bool :=
  moverOk c.mover && c.setpoint ≤ maxPosition && velocityOk c.velocity && c.dwellRemaining ≤ 65535 &&
    c.zoneWaitCount ≤ 65535 && (c.claim.all fun q => zoneOk q.zone && q.sends ≤ 3 && q.periods ≤ 8) &&
    runOk c.receiverRun && runOk c.senderRun && (c.denied.all fun d => zoneOk d.1) &&
    c.active.all MoveRecord.ok && c.queue.length ≤ moveQueueSize && c.queue.all MoveRecord.ok &&
    c.flushedAtStop ≤ 8 && (c.motion = .stopping || c.flushedAtStop = 0)

/-- The fields of a frame lie in the ranges that R178 to R181 give its kind. -/
def Frame.ok : Frame → Bool
  | .present p =>
    p.origin ≤ maxPosition && p.origin % zoneLength = 0 && 8 ≤ p.coils && p.coils ≤ 16 && neighbourOk p.lower &&
      neighbourOk p.upper && p.drive.ok
  | .notice d => d.ok
  | .claim m g _ | .cancel m g | .grant m g | .deferred m g => moverOk m && zoneOk g
  | .queued m g p => moverOk m && zoneOk g && 1 ≤ p && p ≤ 4
  | .denied m g r => moverOk m && zoneOk g && r ≠ .closed && r ≠ .noAnswer
  | .release m f n => moverOk m && zoneOk f && 1 ≤ n && n ≤ 16 && f + n ≤ lastZone + 1
  | .handover c => c.ok
  | .taken m | .refused m _ => moverOk m
  | .track m p v d => moverOk m && p ≤ maxPosition && velocityOk v && demandOk d
  | .order t m k => t ≤ 255 && moverOk m && match k with
    | .move r => r.ok
    | .abort | .clear => true
  | .orderReply t m r => t ≤ 255 && moverOk m && r ≠ .inTransit && r ≠ .notFound

/-- The row whose event is the taking of a frame of that kind (R178); a TAKEN accepted by the watch table alone has its
own row (R134). -/
def Station.takingRow (st : Station) (f : RxFrame) : Option Instr :=
  match f.kind with
  | 1 => some .presentFrame
  | 2 => some .noticeFrame
  | 3 => some .claimFrame
  | 4 => some .cancelFrame
  | 5 => some .grantFrame
  | 6 => some .queuedFrame
  | 7 => some .deniedFrame
  | 8 => some .deferredFrame
  | 9 => some .releaseFrame
  | 10 => some .handoverFrame
  | 11 => if f.destination ≠ st.own ∧ f.destination ≠ 63 then some .overheardTaken else some .takenFrame
  | 12 => some .refusedFrame
  | 13 => some .trackFrame
  | 14 => some .orderFrame
  | 15 => some .orderReplyFrame
  | _ => none

/-- The command is the taking of a frame (R107). -/
def isTaking (c : Instr) : Bool :=
  match c with
  | .presentFrame | .noticeFrame | .claimFrame | .cancelFrame | .grantFrame | .queuedFrame | .deniedFrame
  | .deferredFrame | .releaseFrame | .handoverFrame | .takenFrame | .overheardTaken | .refusedFrame | .trackFrame
  | .orderFrame | .orderReplyFrame => true
  | _ => false

/-- The station once a taken frame left its queue as `rest` and one loose send with that content to `n` was placed in the
Send List, at the next place in due order (R101, R102). -/
def Station.replying (st : Station) (rest : List RxFrame) (n : Address) (content : Frame) : Station :=
  { st with rxQueue := rest, sendList := st.sendList ++ [{ destination := n, content, due := st.freshDue }],
            nextPlace := st.nextPlace + 1 }

/-- The head of the receive queue is a frame that passes its checks, is not foreign, and finds the Send List entries it
needs (R107 to R109): the queue is that frame and `rest`, and its content is `fr`. -/
structure Station.Ready (st : Station) (f : RxFrame) (rest : List RxFrame) (fr : Frame) : Prop where
  runs : st.running = true
  unstalled : st.rxStalled = false
  head : st.rxQueue = f :: rest
  parsed : parseFrame f.kind f.payload = some fr
  notForeign : fr.neighbourKind = true → st.openNeighbour f.source = true
  room : st.sendsNeeded f.source fr ≤ st.sendsFree

end Sys2Proof.Machine
end

