-- ==== Sys2Proof/WellFormed.lean ====
section
/-! DEFINITION. When a command's operands fit the bytes and pins that bring them (R178, R182; R157 for the inputs).
A range that the command itself tests and answers BAD_PARAM (R163) is not a matter of this file. -/

namespace Sys2Proof

/-- A number that one byte can hold. -/
def fitsByte (n : Nat) : Bool := n < 256

/-- A number that two bytes can hold. -/
def fitsTwoBytes (n : Nat) : Bool := n < 65536

/-- The fields of a move record fit their 11 bytes (R178). -/
def MoveParams.wellFormed (p : MoveParams) : Bool :=
  fitsTwoBytes p.tag && p.target ≤ Config.maxPosition && fitsTwoBytes p.speed && fitsByte p.accel &&
    fitsTwoBytes p.dwell && fitsByte p.flags

/-- The input is a pin of the part: OC0 to OC15 or SUPLO (pin summary of 00_scope.md). -/
def TripCause.wellFormed : TripCause → Bool
  | .coil k => k < 16
  | .supply => true

/-- The operands can come in through the port or pin of the command. -/
def Instr.wellFormed : Instr → Bool
  | .malformedMessage second => second.all fitsByte
  | .status q | .halt q | .driveOn q | .driveOff q | .readSides q | .maintenance q | .storeClearBuffer q
  | .restart q => fitsByte q
  | .readReports q n | .ackFlags q n | .setMask q n | .storeRead q n | .storeErase q n | .storeCommit q n =>
    fitsByte q && fitsByte n
  | .setMitigation q t a => fitsByte q && fitsByte t && fitsByte a
  | .move q m p => fitsByte q && fitsTwoBytes m && p.wellFormed
  | .abort q n | .clear q n | .adopt q n | .forget q n | .block q n | .unblock q n | .readMover q n
  | .readZone q n => fitsByte q && fitsTwoBytes n
  | .watchSet q mode ids => fitsByte q && fitsByte mode && ids.all fitsTwoBytes && ids.length ≤ 62
  | .storeStage q start data => fitsByte q && fitsByte start && data.length ≤ 124
  | .followCountExpiry m | .dwellEnd m | .zoneTimeout m | .claimAnswerTimeout m | .handoverAnswerTimeout m
  | .trackLoss m | .lossCountExpiry m => 1 ≤ m && m ≤ 4095
  | .orderTimeout t => fitsByte t
  | .tripInputActive i | .tripInputInactive i => i.wellFormed
  | .deadtimeElapsed k _ | .pwmCompareReached k => k < 16
  | .pinReset | .nullMessage | .storeOperationComplete | .controlPeriodExpiry | .joinCountExpiry
  | .probeCountExpiry _ | .ageTimerExpiry | .scan _ | .pwmTurn | .frameReceived _ | .presentFrame | .noticeFrame
  | .claimFrame | .cancelFrame | .releaseFrame | .grantFrame | .queuedFrame | .deniedFrame | .deferredFrame
  | .handoverFrame | .takenFrame | .overheardTaken | .refusedFrame | .trackFrame | .orderFrame
  | .orderReplyFrame | .transmitStart _ | .attemptEnd _ | .loadingEnd => true

end Sys2Proof
end

