-- ==== Sys2Proof/Certificates/Slice0/Obligations.lean ====
section
/-! DEFINITION. The statements about the part, from the rules of spec/. `s.commit st` is what an event that leaves the
station as `st` ends with (`EventEndsWithItsReportsAndOutputs` says what that is); `s.replied` is the port after a response.
Every statement holds for every state that meets its premises. -/

open Sys2Proof Sys2Proof.Machine

/-- A step takes the command at the front (log entry 1: the queue is the model's own form of "whichever came first",
R160). -/
def Obligations.StepRunsTheFrontCommand : Prop :=
  ∀ (c : Instr) (rest : List Instr) (s : State),
    step { s with pending := c :: rest } = exec c { s with pending := rest }

/-- The first two tests of R163, in their order: `takenIn` is the table of R164, `paramsInRange` gathers the ranges. -/
def Obligations.FirstTestsAnswerStateOrBadParam : Prop :=
  ∀ (c : Instr) (seq : Nat) (s : State), portSeq c = some seq →
    (takenIn c s.station.mode = false → exec c s = .next { s with port := s.replied seq .state .empty }) ∧
    (takenIn c s.station.mode = true → paramsInRange c = false →
      exec c s = .next { s with port := s.replied seq .badParam .empty })

/-- R163: "A BUSY, REFUSED, BAD_PARAM, NOT_FOUND or STATE answer leaves every block of the part as it was, apart from the
response buffer." -/
def Obligations.WholeMessageIsAnsweredAndRefusalsChangeNothing : Prop :=
  ∀ (c : Instr) (seq : Nat) (s : State), portSeq c = some seq →
    ∃ (t : State) (result : ResultCode) (data : ReplyData), exec c s = .next t ∧
      t.port = s.replied seq result data ∧ t.pending = s.pending ∧
      (result ≠ .ok → result ≠ .accepted → t = { s with port := t.port })

/-- The three forms of R161, and what the two that take no command do; an overlong transaction whose length byte is 0 is a
null message (log entry 46). Before the form is judged, the bytes fixed at the transaction's start were shifted out, FFh
after them (R160). Last, the bytes of a response (R162, R182), a report's by the table of R167. That the flags of ACK FLAGS'
response are one class byte is the model's choice (log entry 12): R182 gives a class byte to parameters alone. -/
def Obligations.MessageFormDecidesTheCommand : Prop :=
  (∀ (bs : List Byte) (overlong : Bool),
      ((bs = [] ∨ bs.head? = some 0) → commandOfMessage bs overlong = .nullMessage) ∧
      (∀ (n : Byte) (rest : List Byte), bs = n :: rest → n ≠ 0 →
        (n.toNat ≤ 2 ∨ n.toNat ≠ bs.length ∨ overlong = true) →
        commandOfMessage bs overlong = .malformedMessage (rest.head?.map BitVec.toNat)) ∧
      (∀ (n q code : Byte) (params : List Byte), bs = n :: q :: code :: params → n ≠ 0 → n.toNat = bs.length →
        overlong = false →
        commandOfMessage bs overlong =
          match commandOfCode q.toNat code.toNat params with
          | some c => c
          | none => .malformedMessage (some q.toNat))) ∧
    (∀ s : State,
      exec .nullMessage s =
        .next { s with port := { response := s.port.response, shifted := responseBytes s.port.response } } ∧
      (∀ (c : Instr) (t : State), c = .nullMessage ∨ (∃ b, c = .malformedMessage b) ∨ (portSeq c).isSome = true →
        exec c s = .next t → ∀ i : Nat,
          (∀ b, (responseBytes s.port.response)[i]? = some b → t.port.shiftedByte i = b) ∧
          ((responseBytes s.port.response).length ≤ i → t.port.shiftedByte i = 0xFF)) ∧
      (∀ b : Nat, exec (.malformedMessage (some b)) s = .next { s with port := s.replied b .badParam .empty }) ∧
      exec (.malformedMessage none) s = .next { s with port := s.replied 0 .badParam .empty }) ∧
    responseBytes none = [0] ∧
    ∀ r : Response, ∃ data : List Byte,
      let be := fun width n : Nat => (List.range width).map fun i => BitVec.ofNat 8 (n / 256 ^ (width - 1 - i))
      let result := match r.result with
        | .ok => 0
        | .accepted => 1
        | .busy => 2
        | .refused => 3
        | .badParam => 4
        | .notFound => 5
        | .state => 6
      let reason := fun x : RefuseReason => match x with
        | .inTransit => 1
        | .stray => 2
        | .faulted => 3
        | .stopping => 4
        | .queueFull => 5
        | .badState => 6
        | .drift => 7
        | .notStray => 8
        | .zoneBusy => 9
        | .outOfSegment => 10
        | .moversActive => 11
        | .driveOn => 12
        | .tripActive => 13
      let record := fun x : ReportRecord =>
        let layout := fun (reportClass kind : Nat) (mover zone station tag : Option Nat) (detail : List Nat) =>
          be 2 x.seq ++ be 4 x.time ++ be 1 reportClass ++ be 1 kind ++
            be 1 (mover.toList.length + 2 * zone.toList.length + 4 * station.toList.length + 8 * tag.toList.length) ++
            be 2 (mover.getD 0) ++ be 2 (zone.getD 65535) ++ be 1 (station.getD 63) ++ be 2 (tag.getD 0) ++
            (List.range 3).flatMap fun i => be 1 (detail.getD i 0)
        match x.body with
        | .moveDone m t => layout 0 1 m none none t []
        | .moveAborted m t n => layout 0 2 m none none t [n]
        | .zoneTimeout m g t => layout 0 3 m g none t []
        | .zoneDenied m g t c => layout 0 4 m g none t [denialCode c]
        | .moverFault m c n h => layout 1 5 m none none none [faultCode c, n, (h.map refusalCode).getD 0]
        | .driveTrip c => layout 1 6 none none none none [causeCode c]
        | .trackLoss m => layout 1 7 m none none none []
        | .sideOpen n => layout 2 8 none none n none []
        | .sideClosed n c => layout 2 9 none none n none [closedCode c]
        | .neighbourRestart n => layout 2 10 none none n none []
        | .neighbourTrip n c => layout 2 11 none none n none [causeCode c]
        | .neighbourResume n => layout 2 12 none none n none []
        | .orderResult m n t c => layout 3 13 m none n t [orderResultCode c]
        | .watchOwner m n p => layout 4 14 m none n none [p]
        | .joined => layout 5 15 none none none none []
        | .straySeen m g => layout 5 16 m g none none []
        | .storeDone op p => layout 5 17 none none none none [storeOpCode op, p]
        | .storeInvalid p => layout 5 18 none none none none [p]
      responseBytes (some r) = be 1 (3 + data.length) ++ be 1 r.seq ++ be 1 result ++ data ∧
      (r.data = .empty → data = []) ∧ (∀ x, r.data = .reason x → data = be 1 (reason x)) ∧
      (∀ c, r.data = .tripActive c → data = be 1 13 ++ be 1 (causeCode c)) ∧
      (∀ n, r.data = .number n → data = be 1 n) ∧ (∀ a b, r.data = .numbers a b → data = be 1 a ++ be 1 b) ∧
      (∀ f, r.data = .flags f → data = [f.setWidth 8]) ∧
      (∀ bs mark, r.data = .page bs mark → data = bs ++ be 1 (if mark then 1 else 0)) ∧
      ∀ records left overflow, r.data = .reports records left overflow →
        data = be 1 records.length ++ records.flatMap record ++ be 1 left ++ be 1 overflow

/-- Reading undoes writing for the messages of R182, for every command of the port at every operand its bytes admit. -/
def Obligations.CommandMessageRoundTrip : Prop :=
  ∀ (c : Instr) (bs : List Byte), c.wellFormed = true → messageOfCommand c = some bs →
    commandOfTransaction (bs.flatMap byteBits) = c

/-- Every item of the table of R165. -/
def Obligations.StatusCopiesTheItems : Prop :=
  ∀ (seq : Nat) (s : State), s.station.mode ≠ .loading →
    ∃ c : StatusCopy, exec (.status seq) s = .next { s with port := s.replied seq .ok (.status c) } ∧
      c.mode = s.station.mode ∧ c.record = s.station.record ∧ c.periodCount = s.station.periodCount ∧
      (s.station.mode = .joining → c.joinCount = some s.station.joinCount) ∧
      (s.station.mode ≠ .joining → c.joinCount = none) ∧
      c.drive = s.station.drive ∧ c.latch = s.station.latch ∧ c.overCurrent = s.station.overCurrent ∧
      c.supplyLow = s.station.supplyLow ∧
      c.strays = s.station.entries.countP (fun e => e.state = .stray) ∧
      c.visitors = s.station.entries.countP (fun e => e.state = .visitor) ∧
      c.residents = s.station.entries.countP (fun e => e.state = .resident) ∧
      c.handings = s.station.entries.countP (fun e => e.state = .handing) ∧
      c.zonesFree = s.station.zones.countP (fun z => z.state = .free) ∧
      c.zonesBlocked = s.station.zones.countP (fun z => z.state = .blocked) ∧
      c.zonesFree + c.zonesHeld + c.zonesBlocked = s.station.zones.length ∧
      c.waitingClaims = (s.station.zones.map fun z => z.waiting.length).sum ∧
      c.lowerState = s.station.lowerSide.state ∧ c.lowerTripped = s.station.lowerSide.trippedMark ∧
      c.upperState = s.station.upperSide.state ∧ c.upperTripped = s.station.upperSide.trippedMark ∧
      c.rxFrames = s.station.rxQueue.length ∧ c.rxStalled = s.station.rxStalled ∧
      c.sendsInUse = s.station.sendList.length ∧ c.linkCounters = s.station.linkCounters ∧
      c.ordersInUse = s.station.orders.length ∧ c.nextTag = s.station.nextTag ∧
      c.watchMode = s.station.watchMode ∧ c.watchCount = s.station.watchList.length ∧
      c.expectedScan = s.station.expectedScan ∧ c.sightingCounters = s.station.sightingCounters ∧
      c.busy = s.store.busy ∧ c.mark0 = s.store.mark0 ∧ c.mark1 = s.store.mark1 ∧
      c.reports = s.reports.queue.length ∧ c.nextSeq = s.reports.nextSeq ∧ c.overflow = s.reports.overflow ∧
      c.flags = s.reports.flags ∧ c.masks = s.reports.masks ∧ c.threshold = s.reports.threshold ∧
      c.age = s.reports.age ∧ c.timerCount = s.reports.timerCount ∧ c.timerRunning = s.reports.timerRunning ∧
      c.lineAsserted = s.reports.lineAsserted

/-- R169. `Reports.Consistent` is an invariant of every step (`StepKeepsSafe`). -/
def Obligations.ReadReportsRemovesFromTheHead : Prop :=
  ∀ (seq count : Nat) (s : State), s.station.mode.started = true → s.reports.Consistent →
    (count = 0 ∨ 8 < count →
      exec (.readReports seq count) s = .next { s with port := s.replied seq .badParam .empty }) ∧
    (1 ≤ count → count ≤ 8 →
      exec (.readReports seq count) s = .next
        { s with reports := { s.reports with queue := s.reports.queue.drop count },
                 port := s.replied seq .ok (.reports (s.reports.queue.take count)
                   (s.reports.queue.drop count).length s.reports.overflow) })

/-- ACK FLAGS by R170, its line and timer by R171 and R172. -/
def Obligations.AckFlagsClearsTheNamedClasses : Prop :=
  ∀ (seq classes : Nat) (s : State), s.station.mode.started = true → s.reports.Consistent →
    ∃ r : Reports, exec (.ackFlags seq classes) s =
        .next { s with reports := r, port := s.replied seq .ok (.flags r.flags) } ∧
      (∀ k < 6, r.flags.getLsbD k = (s.reports.flags.getLsbD k && !classes.testBit k)) ∧
      (classes.testBit 7 = true → r.overflow = 0) ∧ (classes.testBit 7 = false → r.overflow = s.reports.overflow) ∧
      r.queue = s.reports.queue ∧ r.nextSeq = s.reports.nextSeq ∧ r.masks = s.reports.masks ∧
      r.threshold = s.reports.threshold ∧ r.age = s.reports.age ∧ r.timerCount = s.reports.timerCount ∧
      (r.flags &&& ~~~r.masks = 0 → r.lineAsserted = false ∧ r.timerRunning = false) ∧
      (r.flags &&& ~~~r.masks ≠ 0 →
        r.lineAsserted = s.reports.lineAsserted ∧ r.timerRunning = s.reports.timerRunning)

/-- SET MASK by R170, its line and timer by R171 and R172. -/
def Obligations.SetMaskReplacesTheMasks : Prop :=
  ∀ (seq masks : Nat) (s : State), s.station.mode.started = true → s.reports.Consistent →
    ∃ r : Reports, exec (.setMask seq masks) s = .next { s with reports := r, port := s.replied seq .ok .empty } ∧
      (∀ k < 6, r.masks.getLsbD k = masks.testBit k) ∧ r.flags = s.reports.flags ∧ r.queue = s.reports.queue ∧
      r.nextSeq = s.reports.nextSeq ∧ r.overflow = s.reports.overflow ∧ r.threshold = s.reports.threshold ∧
      r.age = s.reports.age ∧
      (r.flags &&& ~~~r.masks = 0 → r.lineAsserted = false ∧ r.timerRunning = false) ∧
      (r.flags &&& ~~~r.masks ≠ 0 →
        (r.lineAsserted = true ↔ s.reports.lineAsserted = true ∨ r.threshold = 0 ∨ r.threshold ≤ r.queue.length) ∧
        (r.lineAsserted = true → r.timerRunning = false) ∧
        (r.lineAsserted = false →
          (r.flags &&& s.reports.masks &&& ~~~r.masks ≠ 0 ∧ s.reports.timerRunning = false ∧ 1 ≤ r.age →
            r.timerRunning = true ∧ r.timerCount = 0) ∧
          (¬(r.flags &&& s.reports.masks &&& ~~~r.masks ≠ 0 ∧ s.reports.timerRunning = false ∧ 1 ≤ r.age) →
            r.timerRunning = s.reports.timerRunning ∧ r.timerCount = s.reports.timerCount)))

/-- SET MITIGATION by R171, the line by R172. -/
def Obligations.SetMitigationReplacesTheSettings : Prop :=
  ∀ (seq threshold age : Nat) (s : State), s.station.mode.started = true → s.reports.Consistent →
    threshold ≤ 31 → age ≤ 255 →
    ∃ r : Reports, exec (.setMitigation seq threshold age) s =
        .next { s with reports := r, port := s.replied seq .ok .empty } ∧
      r.threshold = threshold ∧ r.age = age ∧ r.queue = s.reports.queue ∧ r.nextSeq = s.reports.nextSeq ∧
      r.overflow = s.reports.overflow ∧ r.flags = s.reports.flags ∧ r.masks = s.reports.masks ∧
      r.timerCount = s.reports.timerCount ∧
      (r.flags &&& ~~~r.masks = 0 → r.lineAsserted = false ∧ r.timerRunning = false) ∧
      (r.flags &&& ~~~r.masks ≠ 0 →
        (r.lineAsserted = true ↔ s.reports.lineAsserted = true ∨ threshold = 0 ∨ threshold ≤ r.queue.length ∨
          (s.reports.timerRunning = true ∧ 1 ≤ age ∧ age ≤ r.timerCount)) ∧
        (r.timerRunning = true ↔
          s.reports.timerRunning = true ∧ r.lineAsserted = false ∧ r.timerCount < age))

/-- The Report Queue by R168, flags by R170, the timer by R171, the line by R172; `tick` is the age timer's counting at an
expiry (`ControlPeriodExpiryDoesItsWorkInOrder`), and AGE_TIMER_EXPIRY acts at the counting that reaches the age (log entry
3). -/
def Obligations.ReportJoinsTheQueueAndStartsTheTimer : Prop :=
  (∀ (r : Reports) (time : Nat) (b : ReportBody), r.Consistent →
    (r.queue.length = 32 → r.add time b = { r with overflow := min (r.overflow + 1) 255 }) ∧
    (r.queue.length < 32 →
      (r.add time b).queue = r.queue ++ [{ seq := r.nextSeq, time := time, body := b }] ∧
      (r.add time b).nextSeq = (r.nextSeq + 1) % 65536 ∧ (r.add time b).overflow = r.overflow ∧
      (r.add time b).masks = r.masks ∧ (r.add time b).threshold = r.threshold ∧ (r.add time b).age = r.age ∧
      (∀ k < 6, (r.add time b).flags.getLsbD k = (r.flags.getLsbD k || k == b.reportClass.number)) ∧
      ((r.add time b).flags &&& ~~~r.masks = 0 → (r.add time b).lineAsserted = r.lineAsserted) ∧
      ((r.add time b).flags &&& ~~~r.masks ≠ 0 →
        ((r.add time b).lineAsserted = true ↔
          r.lineAsserted = true ∨ r.threshold = 0 ∨ r.threshold ≤ r.queue.length + 1)) ∧
      (r.flags.getLsbD b.reportClass.number = false → r.masks.getLsbD b.reportClass.number = false →
        (r.add time b).lineAsserted = false → r.timerRunning = false → 1 ≤ r.age →
        (r.add time b).timerRunning = true ∧ (r.add time b).timerCount = 0) ∧
      ((r.add time b).lineAsserted = false →
        (r.timerRunning = true → (r.add time b).timerRunning = true ∧ (r.add time b).timerCount = r.timerCount) ∧
        (r.timerRunning = false → r.flags.getLsbD b.reportClass.number = true ∨
            r.masks.getLsbD b.reportClass.number = true ∨ r.age = 0 →
          (r.add time b).timerRunning = false ∧ (r.add time b).timerCount = r.timerCount)) ∧
      ((r.add time b).lineAsserted = true → (r.add time b).timerRunning = false))) ∧
    (∀ (r : Reports), r.Consistent →
      (r.timerRunning = false → r.tick = r) ∧
      (r.timerRunning = true → r.timerCount + 1 < r.age → r.tick = { r with timerCount := r.timerCount + 1 }) ∧
      (r.timerRunning = true → r.age ≤ r.timerCount + 1 →
        r.tick = { r with timerCount := r.timerCount + 1, lineAsserted := true, timerRunning := false })) ∧
    (∀ (s : State), s.station.running = true → s.reports.Consistent → s.reports.timerRunning = true →
      s.reports.age ≤ s.reports.timerCount + 1 →
      exec .ageTimerExpiry s = .next
        { s with reports := { s.reports with timerCount := s.reports.timerCount + 1, lineAsserted := true,
                                             timerRunning := false } })

/-- What `commit` stands for in the statements of this file: R166 for the reports; R155 and R156 for the outputs, brought up
to date at an event's end without counting a coil clock (log entry 21). `CoilClockMovesCounterAndSwitches` gives the table
of `request` (R155). -/
def Obligations.EventEndsWithItsReportsAndOutputs : Prop :=
  ∀ (s : State) (st : Station), ∃ coils : List Coil,
    s.commit st =
      { s with station := { st with outbox := [], coils := coils },
               reports := st.outbox.foldl (fun r b => r.add st.periodCount b) s.reports } ∧
    coils.length = st.coils.length ∧
    ∀ (k : Nat) (before after : Coil), st.coils[k]? = some before → coils[k]? = some after →
      after.assigned = before.assigned ∧ after.preloaded = before.preloaded ∧ after.applied = before.applied ∧
      (∀ sw : SwitchName, (st.request k before).get sw = false → after.outputs.get sw = false) ∧
      (∀ sw : SwitchName, st.drive ≠ .on → (st.request k before).get sw = true → after.outputs.get sw = true) ∧
      let request := st.request k before
      let deadtime := if st.drive = .on then st.conf.deadtime else 0
      let off := fun (on : Bool) (clocks : Nat) => if on then 0 else clocks
      (after.outputs.ah = true ↔ request.ah = true ∧
        (before.outputs.ah = true ∨ deadtime ≤ off before.outputs.al before.offClocks.al)) ∧
      (after.outputs.al = true ↔ request.al = true ∧
        (before.outputs.al = true ∨ deadtime ≤ off before.outputs.ah before.offClocks.ah)) ∧
      (after.outputs.bh = true ↔ request.bh = true ∧
        (before.outputs.bh = true ∨ deadtime ≤ off before.outputs.bl before.offClocks.bl)) ∧
      (after.outputs.bl = true ↔ request.bl = true ∧
        (before.outputs.bl = true ∨ deadtime ≤ off before.outputs.bh before.offClocks.bh)) ∧
      after.offClocks.ah = off (after.outputs.ah || before.outputs.ah) before.offClocks.ah ∧
      after.offClocks.al = off (after.outputs.al || before.outputs.al) before.offClocks.al ∧
      after.offClocks.bh = off (after.outputs.bh || before.outputs.bh) before.offClocks.bh ∧
      after.offClocks.bl = off (after.outputs.bl || before.outputs.bl) before.offClocks.bl

/-- The values that the rules give for a pin reset (R111 for the zone table, the side records and the join count). That LOADING
holds no zone and EDGE side records until it ends is log entry 28. -/
def Obligations.ResetLeavesTheResetValues : Prop :=
  State.reset.Safe ∧
    (let st := State.reset.station
     st.mode = .loading ∧ st.record = none ∧ st.periodCount = 0 ∧ st.entries = [] ∧ st.attempt = none ∧
     st.zones = [] ∧ st.joinCount = 0 ∧ st.lowerSide = SideRecord.ofNeighbour none ∧
     st.upperSide = SideRecord.ofNeighbour none ∧
     st.sendList = [] ∧ st.rxQueue = [] ∧ st.rxStalled = false ∧ st.linkCounters = ⟨0, 0, 0, 0, 0, 0, 0⟩ ∧
     st.noticeDue = none ∧ st.joinPresentDue = none ∧ st.orders = [] ∧ st.nextTag = 0 ∧ st.watchMode = .off ∧
     st.watchList = [] ∧ st.expectedScan = none ∧ st.sightingCounters = ⟨0, 0, 0, 0⟩ ∧ st.drive = .off ∧
     st.latch = none ∧ st.pwm.running = false ∧ st.pwm.count = 0 ∧ st.coils.length = 16 ∧
     ∀ c ∈ st.coils, c.assigned = none ∧ c.preloaded = .unassigned ∧ c.applied = .unassigned ∧
       c.outputs = ⟨false, false, false, false⟩) ∧
    State.reset.port.response = none ∧
    (let r := State.reset.reports
     r.queue = [] ∧ r.nextSeq = 0 ∧ r.overflow = 0 ∧ r.flags = 0 ∧ r.masks = 0 ∧ r.threshold = 1 ∧ r.age = 0 ∧
     r.timerRunning = false ∧ r.lineAsserted = false) ∧
    (∀ x < 64, State.reset.store.buffer.read x = 0xFF) ∧ State.reset.store.offset = 0 ∧
    State.reset.store.busy = none ∧ State.reset.pending = []

/-- `State.Safe` (Safety.lean) gathers the limits of R5, R21, R101, R106, R125, R133, R168 and R176, the consistency of
the report state, and the shoot-through guard of R155. -/
def Obligations.StepKeepsSafe : Prop :=
  ∀ (s : State), s.Safe → ∃ t : State, step s = .next t ∧ t.Safe

/-- Reading undoes writing for every frame kind: no bit of an encoding is dropped (R92, R178 to R181), whatever the line
carries afterward (log entry 22). -/
def Obligations.FrameRoundTrip : Prop :=
  ∀ (priority : Nat) (source destination : Address) (f : Frame) (rest : List Bool),
    f.ok = true → priority < 4 → source ≤ 62 → destination ≤ 63 →
    ∃ r : RxFrame, readLine (wireBits priority source destination f ++ rest) = .frame r ∧ r.source = source ∧
      r.destination = destination ∧ r.kind = f.kind ∧ parseFrame r.kind r.payload = some f

/-- R4: the zones that a body touches. -/
def Obligations.BodyTouchesZones : Prop :=
  ∀ (p : Position), p ≤ 16777215 →
    (∀ g : ZoneNo, g ∈ bodyZones p ↔ g ≤ 5591 ∧ ∃ q : Nat, p ≤ q + 2000 ∧ q ≤ p + 1999 ∧ q / 3000 = g) ∧
    (bodyZones p).Pairwise (· < ·) ∧
    (2000 ≤ p → p + 1999 ≤ 16775999 →
      (bodyZones p).length = if 1001 ≤ p % 3000 ∧ p % 3000 ≤ 1999 then 3 else 2)

/-- R18. `Station.Tabled` is part of the invariant of every step (`StepKeepsSafe`). -/
def Obligations.ReadMoverCopiesTheTable : Prop :=
  ∀ (seq m : Nat) (s : State), s.station.mode.started = true → s.station.Tabled →
    (m = 0 → ∃ l : List (MoverId × EntryState),
      exec (.readMover seq m) s = .next { s with port := s.replied seq .ok (.moverList l) } ∧
      l = s.station.entries.map (fun e => (e.id, e.state)) ∧ (l.map Prod.fst).Pairwise (· < ·) ∧ l.length ≤ 12) ∧
    (1 ≤ m → m ≤ 4095 → s.station.entry? m = none →
      exec (.readMover seq m) s = .next { s with port := s.replied seq .notFound .empty }) ∧
    (1 ≤ m → m ≤ 4095 → ∀ e : Entry, s.station.entry? m = some e → ∃ first count : Nat,
      exec (.readMover seq m) s = .next { s with port := s.replied seq .ok (.mover e first count) } ∧
      e.id = m ∧ e ∈ s.station.entries ∧ count = (s.station.holdings m).length ∧
      (s.station.holdings m = [] → first = 65535) ∧
      (∀ k, (s.station.holdings m).head? = some k → first = s.station.conf.origin / 3000 + k))

/-- R16 and R17; `forgetSends` lists the sends of R17 in its order, each run of zones unbroken and as long as it can be, and
`kept` gathers the fields that no work on entries, zones and sends changes. Every claim of the forgotten mover goes,
whichever station made it, but a STRAY's (log entry 38); a STRAY's mover that still waits in a list may be granted the
entry it left, as a VISITOR (R28). The lists are examined last, in ascending local index (log entry 41);
`ReleaseAndCancelFreeTheirZones` states `examine` and `offerEntry`. -/
def Obligations.ForgetTellsAndFrees : Prop :=
  ∀ (seq m : Nat) (s : State), s.station.mode.started = true → 1 ≤ m → m ≤ 4095 → s.station.outbox = [] →
    s.station.Tabled →
    (s.station.entry? m = none →
      exec (.forget seq m) s = .next { s with port := s.replied seq .notFound .empty }) ∧
    (∀ e : Entry, s.station.entry? m = some e →
      let neighbour := fun g : ZoneNo =>
        (s.station.side (if g < s.station.firstZone then .lower else .upper)).neighbour.getD 63
      (e.state = .visitor → s.station.forgetSends e = (s.station.claimedZones m).map fun k =>
        (e.owner.getD 63, .denied m (s.station.firstZone + k) .state)) ∧
      (e.state = .resident → ∃ (runs : List (ZoneNo × Nat)) (asked : List ZoneNo),
        runs.Pairwise (fun a b => a.1 + a.2 < b.1) ∧ (∀ r ∈ runs, 1 ≤ r.2) ∧
        (∀ g, (∃ r ∈ runs, r.1 ≤ g ∧ g < r.1 + r.2) ↔
          g ∈ e.remote ∨ g ∈ e.releaseZones .lower ∨ g ∈ e.releaseZones .upper) ∧
        (∀ g, g ∈ asked ↔ ∃ c, e.claim = some c ∧ c.zone = g ∧ s.station.localIndex g = none ∧
          (1 ≤ c.sends ∨ ∃ a flag, s.station.attempt = some a ∧ a.content = .claim m g flag)) ∧ asked.length ≤ 1 ∧
        s.station.forgetSends e =
          e.takenDue.toList.map (fun t => (t.1, .taken m)) ++
          runs.map (fun r => (neighbour r.1, .release m r.1 r.2)) ++
          (e.cancelDue.toList.map Prod.fst ++ asked).map fun g => (neighbour g, .cancel m g)) ∧
      (e.state = .handing →
        exec (.forget seq m) s = .next { s with port := s.replied seq .refused (.reason .inTransit) }) ∧
      (e.state ≠ .handing → 8 - s.station.sendList.length < (s.station.forgetSends e).length →
        exec (.forget seq m) s = .next { s with port := s.replied seq .busy .empty }) ∧
      (e.state ≠ .handing → (s.station.forgetSends e).length ≤ 8 - s.station.sendList.length →
        ∃ (st : Station) (later : List (Address × Frame)),
          exec (.forget seq m) s = .next { s.commit st with
            port := s.replied seq .ok
              (.numbers (s.station.holdings m).length (s.station.forgetSends e).length) } ∧
          st.kept = s.station.kept ∧ st.outbox = [] ∧
          st.sendList.map (fun l => (l.destination, l.content)) =
            s.station.sendList.map (fun l => (l.destination, l.content)) ++ s.station.forgetSends e ++ later ∧
          (let mine := fun c : WaitClaim => e.state ≠ .stray ∧ c.mover = m
           let cleared : Station :=
             { s.station with
               sendList := s.station.sendList ++ (s.station.forgetSends e).mapIdx fun i p =>
                 { destination := p.1, content := p.2, due := { place := s.station.nextPlace + i, tries := 0, pass := 0 } }
               nextPlace := s.station.nextPlace + (s.station.forgetSends e).length
               zones := s.station.zones.map fun z =>
                 { state := if z.state.heldBy m then .free else z.state
                   grantOwed := if z.state.heldBy m then none else z.grantOwed
                   waiting := z.waiting.filter fun c => decide ¬mine c }
               coils := s.station.coils.mapIdx fun k c =>
                 if s.station.holds m k then { c with assigned := none, preloaded := .unassigned, applied := .unassigned }
                 else c
               entries := s.station.entries.filter fun x => x.id ≠ m }
           st = (cleared.examine ((List.range s.station.zones.length).filter fun k => (s.station.zones[k]?).any fun z =>
             z.state.heldBy m || decide (z.state = .free ∧ ∃ c, z.waiting.head? = some c ∧ mine c))).offerEntry) ∧
          (e.state = .stray → s.station.forgetSends e = [] ∧
            (∀ e', st.entry? m = some e' → e'.state = .visitor) ∧
            (s.station.claimedZones m = [] → st.entry? m = none)) ∧
          (e.state ≠ .stray → st.entry? m = none ∧ st.holdings m = [] ∧ st.claimedZones m = []) ∧
          (∀ (k : Nat) (z : Zone), s.station.zones[k]? = some z →
            (z.state.heldBy m = true → z.waiting = [] →
              st.zones[k]? = some { state := .free, grantOwed := none, waiting := [] }) ∧
            (z.state.heldBy m = false → z.state ≠ .free → st.zones[k]? = some
              (if e.state = .stray then z else { z with waiting := z.waiting.filter fun c => c.mover ≠ m }))) ∧
          (∀ (k : Nat) (coil : Coil), k ∈ s.station.holdings m → st.coils[k]? = some coil →
            coil.assigned = none ∧ coil.preloaded = .unassigned ∧ coil.applied = .unassigned)))

/-- R36 and R37; a local claim of a HANDING mover is denied as a RESIDENT's (log entry 43). -/
def Obligations.BlockAndUnblockTheirZone : Prop :=
  ∀ (seq g : Nat) (s : State), s.station.mode.started = true → g ≤ 5591 → s.station.outbox = [] →
    (s.station.localIndex g = none →
      exec (.block seq g) s = .next { s with port := s.replied seq .refused (.reason .outOfSegment) } ∧
      exec (.unblock seq g) s = .next { s with port := s.replied seq .refused (.reason .outOfSegment) }) ∧
    (∀ (k : Nat) (z : Zone), s.station.localIndex g = some k → s.station.zones[k]? = some z →
      (z.state = .blocked →
        exec (.unblock seq g) s = .next
          { s.commit { s.station with
              zones := s.station.zones.set k { state := .free, grantOwed := none, waiting := [] } } with
            port := s.replied seq .ok .empty }) ∧
      (z.state ≠ .blocked → exec (.unblock seq g) s = .next { s with port := s.replied seq .ok .empty }) ∧
      (∀ (m : MoverId) (n : Address), z.state = .held m n →
        exec (.block seq g) s = .next { s with port := s.replied seq .refused (.reason .zoneBusy) }) ∧
      (z.state = .blocked → exec (.block seq g) s = .next { s with port := s.replied seq .ok (.number 0) }) ∧
      (z.state = .free →
        8 - s.station.sendList.length < (z.waiting.filter fun c => c.station ≠ s.station.own).length →
        exec (.block seq g) s = .next { s with port := s.replied seq .busy .empty }) ∧
      (z.state = .free →
        (z.waiting.filter fun c => c.station ≠ s.station.own).length ≤ 8 - s.station.sendList.length →
        ∃ (st : Station) (later : List (Address × Frame)),
          exec (.block seq g) s = .next { s.commit st with port := s.replied seq .ok (.number z.waiting.length) } ∧
          st.kept = s.station.kept ∧ st.outbox = [] ∧
          st.zones[k]? = some { state := .blocked, grantOwed := z.grantOwed, waiting := [] } ∧
          (∀ (j : Nat) (y : Zone), j ≠ k → s.station.zones[j]? = some y → y.state ≠ .free → st.zones[j]? = some y) ∧
          (∀ (c : WaitClaim) (e : Entry), c ∈ z.waiting → c.station = s.station.own →
            s.station.entry? c.mover = some e → e.state = .resident ∨ e.state = .handing →
            (∀ j, s.station.claims c.mover j = true → j = k) →
            st.entry? c.mover = some { e with claim := none, claimDue := none, denied := some (g, .blocked) }) ∧
          st.sendList.map (fun l => (l.destination, l.content)) =
            s.station.sendList.map (fun l => (l.destination, l.content)) ++
              (z.waiting.filter fun c => c.station ≠ s.station.own).map
                (fun c => (c.station, Frame.denied c.mover g .blocked)) ++ later))

/-- R38 and R123. -/
def Obligations.ReadsCopyAndChangeNothing : Prop :=
  ∀ (seq : Nat) (s : State),
    (s.station.mode.started = true → ∀ g : Nat, g ≤ 5591 →
      (s.station.localIndex g = none →
        exec (.readZone seq g) s = .next { s with port := s.replied seq .refused (.reason .outOfSegment) }) ∧
      (∀ (k : Nat) (z : Zone), s.station.localIndex g = some k → s.station.zones[k]? = some z →
        exec (.readZone seq g) s = .next { s with port := s.replied seq .ok (.zone k z) })) ∧
    (s.station.mode.started = true →
      exec (.readSides seq) s = .next { s with
        port := s.replied seq .ok
          (.sides s.station.mode s.station.joinCount s.station.lowerSide s.station.upperSide) })

/-- The classes of R22, the tests of R23 in their order, and the outcome of a new claim by R24; answers by R25. -/
def Obligations.ClaimIsDecidedByItsTests : Prop :=
  ∀ (s : State) (f : RxFrame) (rest : List RxFrame) (m : MoverId) (g : ZoneNo) (flag : Bool),
    s.station.Ready f rest (.claim m g flag) → f.source ≠ s.station.own →
    let st := s.station
    let n := f.source
    let answer := fun c : Frame => exec .claimFrame s = .next (s.commit (st.replying rest n c))
    let entryOpen := flag = true ∧ (st.entry? m).all (fun e => e.state = .stray) = true
    let ordinary := ∃ e, st.entry? m = some e ∧
      ((e.state = .visitor ∧ e.owner = some n) ∨ (e.state = .handing ∧ ∃ h, e.handover = some h ∧ h.target = n) ∨
        (e.state = .resident ∧ e.motion = .faulted .handoverLost ∧ e.lostTarget = some n))
    (st.localIndex g = none → answer (.denied m g .outOfSegment)) ∧
    (∀ (k : Nat) (z : Zone), st.localIndex g = some k → st.zones[k]? = some z →
      (st.mode ≠ .online → answer (.denied m g .state)) ∧
      (st.mode = .online →
        (¬entryOpen ∧ ¬ordinary → answer (.denied m g .state)) ∧
        (entryOpen ∨ ordinary →
          (z.state.heldBy m = true → answer (.grant m g)) ∧
          (z.state.heldBy m = false →
            (∀ i, z.waiting.findIdx? (fun c => c.mover = m) = some i → answer (.queued m g (i + 1))) ∧
            ((∀ c ∈ z.waiting, c.mover ≠ m) →
              (st.drive ≠ .on → answer (.denied m g .drive)) ∧
              (st.drive = .on →
                (z.state = .blocked → answer (.denied m g .blocked)) ∧
                (z.state ≠ .blocked →
                  (∀ a b : Nat, (st.holdings m).head? = some a → (st.holdings m).getLast? = some b →
                    k + 1 ≠ a → k ≠ b + 1 → answer (.denied m g .state)) ∧
                  ((st.holdings m = [] ∨ (st.holdings m).head? = some (k + 1) ∨
                      ∃ b, (st.holdings m).getLast? = some b ∧ k = b + 1) →
                    (z.state = .free ∧ z.waiting = [] ∧ (ordinary ∨ (st.entry? m).isSome ∨ st.entries.length < 12) →
                      exec .claimFrame s = .next (s.commit
                        { st with
                          rxQueue := rest, nextPlace := st.nextPlace + 1,
                          zones := st.zones.set k { z with state := .held m n, grantOwed := some st.freshDue },
                          entries := if ordinary then st.entries else insertEntry
                            { Entry.blank m .visitor with
                              owner := some n, actual := (st.entry? m).bind fun e => e.actual } st.entries })) ∧
                    (¬(z.state = .free ∧ z.waiting = [] ∧
                        (ordinary ∨ (st.entry? m).isSome ∨ st.entries.length < 12)) →
                      (z.waiting.length < 4 →
                        exec .claimFrame s = .next (s.commit
                          { st with
                            rxQueue := rest, nextPlace := st.nextPlace + 1,
                            zones := st.zones.set k { z with
                              waiting := z.waiting ++ [{ mover := m, station := n, entryFlag := decide ¬ordinary,
                                                         queuedOwed := some st.freshDue }] } })) ∧
                      (4 ≤ z.waiting.length → answer (.deferred m g)))))))))))

/-- R30 and R32, with what R19 says of a zone that becomes FREE and R15 of a VISITOR left with nothing; a CANCEL from the
handing target withdraws the mover's claim whichever station made it (log entry 33). Before them the examination of wait
lists (R27, R29): look by look, `offered` marking a list that is only offered a table entry that became free (R28), to the
lists that wait for one as the offer begins (log entry 42); what a denied local claim leaves in its entry is that of R54, a
HANDING one too (log entry 43). Then a zone released (R19) and the test of a VISITOR (R15). -/
def Obligations.ReleaseAndCancelFreeTheirZones : Prop :=
  (∀ (st : Station) (l : Look) (ls : List Look),
    let head := fun k : Nat => (st.zones[k]?).bind fun z => if z.state = .free then z.waiting.head? else none
    st.examineAll [] = st ∧
    (head l.zone = none ∨ (l.offered = true ∧ 12 ≤ st.entries.length) → st.examineAll (l :: ls) = st.examineAll ls) ∧
    (∀ (z : Zone) (c : WaitClaim) (behind : List WaitClaim), st.zones[l.zone]? = some z → z.state = .free →
      z.waiting = c :: behind → (l.offered = true → st.entries.length < 12) →
      let k := l.zone
      let m := c.mover
      let n := c.station
      let entry := n ≠ st.own ∧ c.entryFlag = true ∧ (st.entry? m).all (fun e => e.state = .stray) = true
      let ordinary := n = st.own ∨ ∃ e, st.entry? m = some e ∧
        ((e.state = .visitor ∧ e.owner = some n) ∨ (e.state = .handing ∧ ∃ h, e.handover = some h ∧ h.target = n) ∨
          (e.state = .resident ∧ e.motion = .faulted .handoverLost ∧ e.lostTarget = some n))
      let adjoins := st.holdings m = [] ∨ (st.holdings m).head? = some (k + 1) ∨
        ∃ b, (st.holdings m).getLast? = some b ∧ k = b + 1
      let denied := fun r : DenialReason =>
        let told : Station :=
          { (if n = st.own then
              st.modifyEntry m fun x => { x with claim := none, claimDue := none, denied := some (st.firstZone + k, r) }
             else if st.sendList.length < 8 then
              { st with
                sendList := st.sendList ++
                  [{ destination := n, content := .denied m (st.firstZone + k) r, due := st.freshDue }]
                nextPlace := st.nextPlace + 1 }
             else st) with
            zones := st.zones.set k { z with waiting := behind } }
        let left : Station := { told with entries := told.entries.filter fun e => e.id ≠ m }
        let idle := (∃ e, told.entry? m = some e ∧ e.state = .visitor) ∧ told.holdings m = [] ∧ told.claimedZones m = []
        (¬idle → st.examineAll (l :: ls) = told.examineAll (⟨k, false⟩ :: ls)) ∧
        (idle → st.examineAll (l :: ls) = left.examineAll (left.offers ++ ⟨k, false⟩ :: ls))
      (st.drive ≠ .on → denied .drive) ∧
      (st.drive = .on →
        (¬((entry ∨ ordinary) ∧ adjoins) → denied .state) ∧
        ((entry ∨ ordinary) → adjoins →
          (entry ∧ st.entry? m = none ∧ 12 ≤ st.entries.length → st.examineAll (l :: ls) = st.examineAll ls) ∧
          (¬(entry ∧ st.entry? m = none ∧ 12 ≤ st.entries.length) → st.examineAll (l :: ls) =
            Station.examineAll
              { st with
                zones := st.zones.set k
                  { state := .held m n, grantOwed := if n = st.own then none else some st.freshDue, waiting := behind }
                nextPlace := if n = st.own then st.nextPlace else st.nextPlace + 1
                entries := if n = st.own then (st.modifyEntry m fun x => { x with claim := none }).entries
                  else if entry then insertEntry
                    { Entry.blank m .visitor with owner := some n, actual := (st.entry? m).bind fun e => e.actual } st.entries
                  else st.entries } ls)))) ∧
    st.offers = ((List.range st.zones.length).filter fun k => (head k).any fun c =>
      decide (c.station ≠ st.own) && c.entryFlag && (st.entry? c.mover).isNone).map (fun k => ⟨k, true⟩) ∧
    st.offerEntry = st.examineAll st.offers ∧
    (∀ ks : List Nat, st.examine ks = st.examineAll (ks.map fun k => ⟨k, false⟩)) ∧
    (∀ k : Nat, st.releaseZone k =
      ({ st with
         zones := st.zones.modify k fun z => { z with state := .free, grantOwed := none }
         coils := st.coils.modify k fun c =>
           { c with assigned := none, preloaded := .unassigned, applied := .unassigned } } : Station).examine [k]) ∧
    (∀ m : MoverId,
      let idle := (∃ e, st.entry? m = some e ∧ e.state = .visitor) ∧ st.holdings m = [] ∧ st.claimedZones m = []
      (¬idle → st.testVisitor m = st) ∧
      (idle → st.testVisitor m = ({ st with entries := st.entries.filter fun e => e.id ≠ m } : Station).offerEntry))) ∧
  ∀ (s : State) (f : RxFrame) (rest : List RxFrame) (m : MoverId), s.station.Tabled → s.station.outbox = [] →
    let st := s.station
    let n := f.source
    let named := fun (a c k : Nat) => k ∈ st.holdings m ∧ a ≤ st.firstZone + k ∧ st.firstZone + k < a + c
    let ownerNow := ∃ e, st.entry? m = some e ∧
      ((e.state = .handing ∧ ∃ h, e.handover = some h ∧ h.target = n) ∨
        (e.state = .resident ∧ e.motion = .faulted .handoverLost ∧ e.lostTarget = some n))
    let accepted := fun (a c : Nat) => (∃ k, named a c k) ∧
      (ownerNow ∨ ∀ k z, named a c k → st.zones[k]? = some z → z.state = .held m n) ∧
      unbroken ((st.holdings m).filter fun k => !(decide (a ≤ st.firstZone + k) && decide (st.firstZone + k < a + c))) = true
    let visiting := ∃ e, st.entry? m = some e ∧ e.state = .visitor
    let tested := fun st' : Station =>
      visiting → st'.holdings m = [] → st'.claimedZones m = [] → st'.entry? m = none
    let popped : Station := { st with rxQueue := rest }
    let freed := fun (c : Instr) (a b : Nat) => ∃ st' : Station, exec c s = .next (s.commit st') ∧ tested st' ∧
      st' = Station.testVisitor
        (((st.holdings m).filter fun k => decide (a ≤ st.firstZone + k) && decide (st.firstZone + k < a + b)).foldl
          (fun x k => if x.holds m k then x.releaseZone k else x) popped) m ∧
      (visiting → st.claimedZones m = [] → (∀ k ∈ st.holdings m, named a b k) → st'.entry? m = none) ∧
      st'.kept = ({ st with rxQueue := rest } : Station).kept ∧ st'.outbox = [] ∧
      (∀ k, named a b k → st'.holds m k = false) ∧
      (∀ k z, named a b k → st.zones[k]? = some z → z.waiting = [] →
        st'.zones[k]? = some { state := .free, grantOwed := none, waiting := [] }) ∧
      (∀ k coil, named a b k → st'.coils[k]? = some coil →
        coil.assigned = none ∧ coil.preloaded = .unassigned ∧ coil.applied = .unassigned) ∧
      (∀ k z, ¬named a b k → st.zones[k]? = some z → z.state ≠ .free → st'.zones[k]? = some z)
    (∀ a c : Nat, st.Ready f rest (.release m a c) →
      (¬accepted a c → exec .releaseFrame s = .next (s.commit { st with rxQueue := rest })) ∧
      (accepted a c → freed .releaseFrame a c)) ∧
    (∀ g : ZoneNo, st.Ready f rest (.cancel m g) →
      (st.localIndex g = none → exec .cancelFrame s = .next (s.commit { st with rxQueue := rest })) ∧
      (∀ (k : Nat) (z : Zone), st.localIndex g = some k → st.zones[k]? = some z →
        let mayCancel := (∃ c ∈ z.waiting, c.mover = m) ∧ ((∃ c ∈ z.waiting, c.mover = m ∧ c.station = n) ∨
          ∃ e h, st.entry? m = some e ∧ e.state = .handing ∧ e.handover = some h ∧ h.target = n)
        (mayCancel → ∃ st' : Station, exec .cancelFrame s = .next (s.commit st') ∧ tested st' ∧
          (let unlisted : Station :=
             { popped with zones := st.zones.set k { z with waiting := z.waiting.filter fun c => c.mover ≠ m } }
           (z.state = .free ∧ (∃ c, z.waiting.head? = some c ∧ c.mover = m) →
             st' = Station.testVisitor (unlisted.examine [k]) m) ∧
           (¬(z.state = .free ∧ ∃ c, z.waiting.head? = some c ∧ c.mover = m) → st' = unlisted.testVisitor m)) ∧
          (visiting → st.holdings m = [] → (∀ j, st.claims m j = true → j = k) → st'.entry? m = none) ∧
          st'.kept = ({ st with rxQueue := rest } : Station).kept ∧ st'.outbox = [] ∧ st'.claims m k = false ∧
          (z.state ≠ .free → st'.zones[k]? = some { z with waiting := z.waiting.filter fun c => c.mover ≠ m }) ∧
          (∀ j y, j ≠ k → st.zones[j]? = some y → y.state ≠ .free → st'.zones[j]? = some y)) ∧
        (¬mayCancel → z.state.heldBy m = true → accepted g 1 → freed .cancelFrame g 1) ∧
        (¬mayCancel → (z.state.heldBy m = false ∨ ¬accepted g 1) →
          exec .cancelFrame s = .next (s.commit { st with rxQueue := rest }))))

/-- R41 for a GRANT that matches, R42 for one that does not. The remote holdings are one list toward each side (R10; log entry
51), and the zone joins that of its side. -/
def Obligations.GrantJoinsTheHoldingsOrIsReleased : Prop :=
  ∀ (s : State) (f : RxFrame) (rest : List RxFrame) (m : MoverId) (g : ZoneNo),
    s.station.Ready f rest (.grant m g) →
    let st := s.station
    let n := f.source
    let popped : Station := { st with rxQueue := rest }
    let ignored := exec .grantFrame s = .next (s.commit popped)
    let sendRelease := exec .grantFrame s = .next (s.commit (st.replying rest n (.release m g 1)))
    (st.entry? m = none → sendRelease) ∧
    (∀ e : Entry, st.entry? m = some e →
      (e.state = .stray → sendRelease) ∧
      (e.state = .visitor → (e.owner = some n → ignored) ∧ (e.owner ≠ some n → sendRelease)) ∧
      (e.state = .handing → ((∃ h, e.handover = some h ∧ h.target = n) → ignored) ∧
        ((∀ h, e.handover = some h → h.target ≠ n) → sendRelease)) ∧
      (e.state = .resident →
        let matching := (∃ c, e.claim = some c ∧ c.zone = g) ∧ st.localIndex g = none ∧
          st.sideOfAddress n = some (st.sideOfZone g)
        (matching → exec .grantFrame s = .next (s.commit (popped.modifyEntry m fun e =>
          match st.sideOfZone g with
          | .lower => { e with remoteLower := insertZone g e.remoteLower, claim := none, claimDue := none }
          | .upper => { e with remoteUpper := insertZone g e.remoteUpper, claim := none, claimDue := none }))) ∧
        (¬matching → g ∈ e.remote → ignored) ∧
        (¬matching → g ∉ e.remote → ∀ d : Side, st.sideOfAddress n = some d →
          ∃ (st' : Station) (due : Due), exec .grantFrame s = .next (s.commit st') ∧
            st' = { (popped.modifyEntry m fun x => x.setReleaseDue d
                (some { zones := insertZone g (e.releaseZones d), due := due })) with nextPlace := st'.nextPlace } ∧
            (∀ r, e.releaseDue d = some r → due = r.due))))

/-- The claim that part 7 of R47 raises (R53, R54), decided at once in the own zone table (R26 with R23 and R24) or owed to a
neighbour (R39); and R41 for the answers, what matches nothing being ignored (R42). A zone beyond the clip is recorded as
denied only where a claim could have been raised (log entry 56). -/
def Obligations.ClaimAnswersChangeTheClaim : Prop :=
  (∀ (st : Station) (m : MoverId) (e : Entry), st.entry? m = some e →
    (e.state ≠ .resident ∨ e.claim.isSome = true ∨ e.cancelDue.isSome = true ∨ e.denied.isSome = true →
      st.claimPart m = st) ∧
    (e.state = .resident → e.claim = none → e.cancelDue = none → e.denied = none →
      let p := e.setpoint
      let held := fun g : ZoneNo => (∃ k, st.localIndex g = some k ∧ k ∈ st.holdings m) ∨
        (st.localIndex g = none ∧ g ∈ e.remote)
      let ends := fun nearest : ZoneNo → Prop =>
        ((∀ g, ¬nearest g) → st.claimPart m = st) ∧
        (∀ g, nearest g →
          let denied := fun r : DenialReason =>
            st.claimPart m = st.modifyEntry m fun x => { x with claim := none, claimDue := none, denied := some (g, r) }
          let d := st.sideOfZone g
          let beyond := (st.side d).state = .edge ∨ ∃ origin coils, (st.side d).span = some (origin, coils) ∧
            ((d = .lower ∧ g < origin / 3000) ∨ (d = .upper ∧ origin / 3000 + coils ≤ g))
          (st.localIndex g = none →
            (beyond → st.claimPart m = st.modifyEntry m fun x => { x with denied := some (g, .outOfSegment) }) ∧
            (¬beyond → (st.side d).state ≠ .opened → denied .closed) ∧
            (¬beyond → (st.side d).state = .opened → st.claimPart m =
              { (st.modifyEntry m fun x =>
                  { x with claim := some { zone := g, phase := .toSend, sends := 0, periods := 0, place := 0 },
                           claimDue := some st.freshDue }) with
                nextPlace := st.nextPlace + 1 })) ∧
          (∀ (k : Nat) (z : Zone), st.localIndex g = some k → st.zones[k]? = some z →
            let waits := fun x : Station => st.claimPart m = x.modifyEntry m fun y =>
              { y with claim := some { zone := g, phase := .queued, sends := 0, periods := 0, place := 0 } }
            (st.mode ≠ .online → denied .state) ∧
            (st.mode = .online →
              ((∃ c ∈ z.waiting, c.mover = m) → waits st) ∧
              ((∀ c ∈ z.waiting, c.mover ≠ m) →
                (st.drive ≠ .on → denied .drive) ∧
                (st.drive = .on →
                  (z.state = .blocked → denied .blocked) ∧
                  (z.state ≠ .blocked →
                    let extends' := st.holdings m = [] ∨ (st.holdings m).head? = some (k + 1) ∨
                      ∃ b, (st.holdings m).getLast? = some b ∧ k = b + 1
                    (¬extends' → denied .state) ∧
                    (extends' →
                      (z.state = .free → z.waiting = [] → st.claimPart m =
                        { st with zones := st.zones.set k { z with state := .held m st.own, grantOwed := none } }) ∧
                      (¬(z.state = .free ∧ z.waiting = []) → z.waiting.length < 4 → waits
                        { st with zones := st.zones.set k { z with
                            waiting := z.waiting ++
                              [{ mover := m, station := st.own, entryFlag := false, queuedOwed := none }] } }) ∧
                      (¬(z.state = .free ∧ z.waiting = []) → 4 ≤ z.waiting.length → st.claimPart m = st))))))))
      (∀ r : MoveRecord, e.motion = .moving ∨ e.motion = .zoneWait → e.active = some r →
        let d : Int := if p < r.target then 1 else -1
        let toTarget := if p ≤ r.target then r.target - p else p - r.target
        let ahead := min toTarget (stopDistance (min (e.velocity.natAbs + r.accel) r.speed) r.accel + 3000)
        let needed := fun g : ZoneNo => ¬held g ∧ ∃ q : Nat, g ∈ bodyZones q ∧
          ((d = 1 ∧ p ≤ q ∧ q ≤ p + ahead) ∨ (d = -1 ∧ p - ahead ≤ q ∧ q ≤ p))
        ends fun g => needed g ∧ ∀ g', needed g' → (d = 1 → g ≤ g') ∧ (d = -1 → g' ≤ g)) ∧
      (e.motion = .idle ∨ e.motion = .dwell →
        let needed := fun g : ZoneNo => ¬held g ∧ g ∈ bodyZones p
        let away := fun g : ZoneNo => if p < g * 3000 then g * 3000 - p else p - (g * 3000 + 2999)
        ends fun g => needed g ∧ ∀ g', needed g' → away g ≤ away g') ∧
      ((∀ r, ¬((e.motion = .moving ∨ e.motion = .zoneWait) ∧ e.active = some r)) → e.motion ≠ .idle →
        e.motion ≠ .dwell → st.claimPart m = st))) ∧
  ∀ (s : State) (f : RxFrame) (rest : List RxFrame) (m : MoverId) (g : ZoneNo),
    let st := s.station
    let popped : Station := { st with rxQueue := rest }
    let matching := ∃ e c, st.entry? m = some e ∧ e.state = .resident ∧ e.claim = some c ∧ c.zone = g ∧
      st.localIndex g = none ∧ st.sideOfAddress f.source = some (st.sideOfZone g)
    (∀ place : Nat, st.Ready f rest (.queued m g place) →
      (matching → exec .queuedFrame s = .next (s.commit (popped.modifyEntry m fun e =>
        { e with claim := some { zone := g, phase := .queued, sends := 1, periods := 0, place := place },
                 claimDue := none }))) ∧
      (¬matching → exec .queuedFrame s = .next (s.commit popped))) ∧
    (∀ r : DenialReason, st.Ready f rest (.denied m g r) →
      (matching → exec .deniedFrame s = .next (s.commit (popped.modifyEntry m fun e =>
        { e with claim := none, claimDue := none, denied := some (g, r) }))) ∧
      (¬matching → exec .deniedFrame s = .next (s.commit popped))) ∧
    (st.Ready f rest (.deferred m g) →
      (matching → exec .deferredFrame s = .next (s.commit (popped.modifyEntry m fun e =>
        { e with claim := e.claim.map fun c => { c with phase := .deferred, sends := 0, periods := 0 },
                 claimDue := none }))) ∧
      (¬matching → exec .deferredFrame s = .next (s.commit popped)))

/-- R40 for the claim, R68 and R81 for the handover; the two rows act at the counting that reaches the eighth period (log
entry 3), the count staying at 8 (log entry 32). A SENT or QUEUED claim whose side is not OPEN ends at its eighth period
whatever its sends made (R40; log entry 53). `claimTimer` and `handoverTimer` are the counting within an expiry's work
(`ControlPeriodExpiryDoesItsWorkInOrder`). -/
def Obligations.AnswerTimeoutsSendAgainOrEnd : Prop :=
  ∀ (s : State) (m : MoverId) (e : Entry), s.station.running = true → s.station.entry? m = some e →
    s.station.outbox = [] →
    let st := s.station
    (e.claim = none → st.claimTimer m = st) ∧ (e.handover = none → st.handoverTimer m = st) ∧
    (∀ c : Claim, e.claim = some c →
      (st.localIndex c.zone ≠ none ∨ c.phase = .toSend → st.claimTimer m = st) ∧
      (st.localIndex c.zone = none → c.phase ≠ .toSend → c.periods < 7 →
        st.claimTimer m = st.modifyEntry m fun x => { x with claim := some { c with periods := c.periods + 1 } })) ∧
    (∀ h : Handover, e.handover = some h →
      (h.phase ≠ .awaiting → st.handoverTimer m = st) ∧
      (h.phase = .awaiting → h.waiting < 7 →
        st.handoverTimer m = st.modifyEntry m fun x => { x with handover := some { h with waiting := h.waiting + 1 } })) ∧
    (∀ c : Claim, e.claim = some c → st.localIndex c.zone = none → c.phase ≠ .toSend → 7 ≤ c.periods →
      let sideOpen := (st.side (st.sideOfZone c.zone)).state = .opened
      ((c.phase = .deferred ∨ (c.sends < 3 ∧ sideOpen)) →
        exec (.claimAnswerTimeout m) s = .next (s.commit
          { (st.modifyEntry m fun x => { x with claim := some { c with phase := .toSend, periods := 8 },
                                                claimDue := some st.freshDue }) with
            nextPlace := st.nextPlace + 1 })) ∧
      (c.phase ≠ .deferred → (3 ≤ c.sends ∨ ¬sideOpen) → e.cancelDue = none →
        exec (.claimAnswerTimeout m) s = .next (s.commit
          { (st.modifyEntry m fun x => { x with claim := none, claimDue := none, denied := some (c.zone, .noAnswer),
                                                cancelDue := some (c.zone, st.freshDue) }) with
            nextPlace := st.nextPlace + 1 }))) ∧
    (∀ h : Handover, e.handover = some h → h.phase = .awaiting → 7 ≤ h.waiting →
      (h.attempts < 3 →
        exec (.handoverAnswerTimeout m) s = .next (s.commit
          { (st.modifyEntry m fun x =>
              { x with handover := some { h with phase := .ready st.freshDue, waiting := 8 } }) with
            nextPlace := st.nextPlace + 1 })) ∧
      (3 ≤ h.attempts → ∃ (st' : Station) (e' : Entry),
        exec (.handoverAnswerTimeout m) s = .next (s.commit st') ∧ st'.kept = st.kept ∧ st'.entry? m = some e' ∧
        e'.state = .resident ∧ e'.handover = none ∧ e'.setpoint = e.setpoint ∧
        (∀ d, e'.remoteToward d = (e.remoteToward d).filter fun g => (bodyZones e.setpoint).contains g) ∧
        (st.Tabled → st.ClaimGivenUp st' h.travelled e e' ∧ st.ReleasedOffBody st' e.setpoint e e') ∧
        (∀ cause, e.motion = .faulted cause → e'.motion = .faulted cause ∧ st'.outbox = []) ∧
        (e.motion.isFaulted = false → e'.motion = .faulted .handoverLost ∧ e'.lostTarget = some h.target ∧
          e'.active = none ∧ e'.queue = [] ∧ e'.velocity = 0 ∧ e'.demand = 0 ∧
          st'.outbox = [.moverFault m .handoverLost (e.active.toList.length + e.queue.length) none])))

/-- R49 for H, over the zones that count (R66 and R83 for a HANDING entry); R48 for S, R50 for the choice of the speed. -/
def Obligations.StepsKeepTheStopWithinReach : Prop :=
  (∀ (st : Station) (e : Entry),
    let counts := fun g : ZoneNo =>
      (∃ (k : Nat) (z : Zone) (n : Address), st.localIndex g = some k ∧ st.zones[k]? = some z ∧ z.state = .held e.id n ∧
        (e.state = .handing → n = st.own)) ∨
      (st.localIndex g = none ∧ g ∈ e.remote ∧ (st.side (st.sideOfZone g)).state = .opened ∧
        (e.state = .handing → ∃ h, e.handover = some h ∧ st.sideOfAddress h.target = some (st.sideOfZone g)))
    let up := e.setpoint + 1999
    let down := e.setpoint - 2000
    (16775999 < up → st.holdDistance e 1 = 0) ∧
    (up ≤ 16775999 → ¬counts (up / 3000) → st.holdDistance e 1 = 0) ∧
    (up ≤ 16775999 → counts (up / 3000) → ∃ last, up / 3000 ≤ last ∧ (∀ g, up / 3000 ≤ g → g ≤ last → counts g) ∧
      ¬counts (last + 1) ∧ st.holdDistance e 1 = last * 3000 + 2999 - up) ∧
    (e.setpoint < 2000 ∨ 16775999 < down → st.holdDistance e (-1) = 0) ∧
    (2000 ≤ e.setpoint → down ≤ 16775999 → ¬counts (down / 3000) → st.holdDistance e (-1) = 0) ∧
    (2000 ≤ e.setpoint → down ≤ 16775999 → counts (down / 3000) → ∃ first, first ≤ down / 3000 ∧
      (∀ g, first ≤ g → g ≤ down / 3000 → counts g) ∧ (1 ≤ first → ¬counts (first - 1)) ∧
      st.holdDistance e (-1) = down - first * 3000)) ∧
  ∀ (v a c L : Nat), 1 ≤ a →
    stopDistance 0 a = 0 ∧ (∀ u, 0 < u → u < a → stopDistance u a = u) ∧
    (∀ u, a ≤ u → stopDistance u a = u + stopDistance (u - a) a) ∧
    (stopDistance (min (v + a) c) a ≤ L → nextSpeed v a c L = min (v + a) c) ∧
    (L < stopDistance (min (v + a) c) a → 1 ≤ v → stopDistance v a ≤ L → nextSpeed v a c L = v) ∧
    (L < stopDistance (min (v + a) c) a → (v = 0 ∨ L < stopDistance v a) → 1 ≤ v - a → nextSpeed v a c L = v - a) ∧
    (L < stopDistance (min (v + a) c) a → (v = 0 ∨ L < stopDistance v a) → v ≤ a → nextSpeed v a c L = min a L) ∧
    (stopDistance (v - a) a ≤ L →
      nextSpeed v a c L ≤ L ∧ stopDistance (nextSpeed v a c L - a) a ≤ L - nextSpeed v a c L)

/-- R46: the work of an expiry, with the parts of R47 in their order and R48, R56, R64, R67 and R88 for the start, the
releases, the demand, the transfer and the TRACK. `StepsKeepTheStopWithinReach` states the hold distance,
`MovingStepByTheProfile` the steps, `ClaimAnswersChangeTheClaim` the claim, `AnswerTimeoutsSendAgainOrEnd`,
`CountsEndInFaults`, `DwellAndZoneWaitEnd` and `TrackSetsTheShadow` the counts, each with the row that stands for its end
(log entry 3), and `ReleaseAndCancelFreeTheirZones` the release of one zone. The test of a stalled head (R109; `HeadIsDiscardedForeignOrStalled`) comes first or last, a free value (log
entry 10). The lower side's probe count comes before the upper one's (log entry 41), an age timer that the expiry's own
reports start is not counted (log entry 39), and TRACK is raised also at the expiry whose check faults the entry (log entry
54). A station that is not running has no expiry (log entry 4). -/
def Obligations.ControlPeriodExpiryDoesItsWorkInOrder : Prop :=
  (∀ (s : State),
    (s.station.running = false → exec .controlPeriodExpiry s = .next s) ∧
    (s.station.running = true →
      let counted : Station := { s.station with periodCount := (s.station.periodCount + 1) % 4294967296 }
      let work := fun st : Station =>
        let entries := (st.entries.map Entry.id).foldl (fun st m => st.workEntry m) st
        ((entries.joinTick.probeTick .lower).probeTick .upper).orderTick
      let aged := fun t : State =>
        { t with reports := if s.reports.timerRunning then t.reports.tick else t.reports, free := s.free + 1 }
      (s.station.rxStalled = false →
        let ended := s.commit (work counted)
        exec .controlPeriodExpiry s = .next (aged ended) ∧
        ended.station.periodCount = (s.station.periodCount + 1) % 4294967296 ∧
        ended.station.record = s.station.record ∧ ended.station.rxQueue = s.station.rxQueue ∧
        ended.station.linkCounters = s.station.linkCounters ∧
        ended.station.sightingCounters = s.station.sightingCounters ∧
        ended.station.watchMode = s.station.watchMode ∧ ended.station.watchList = s.station.watchList ∧
        ended.station.drive = s.station.drive ∧ ended.station.latch = s.station.latch) ∧
      (s.station.rxStalled = true → Config.retestBeforeWork s.free = true →
        exec .controlPeriodExpiry s = .next (aged (s.commit (work counted.retestHead)))) ∧
      (s.station.rxStalled = true → Config.retestBeforeWork s.free = false →
        let worked := aged (s.commit (work counted))
        exec .controlPeriodExpiry s = .next (worked.commit worked.station.retestHead)) ∧
      (∀ (m : MoverId),
        let st := s.station
        (st.claimTimerEnds m = true → exec (.claimAnswerTimeout m) s = .next (s.commit (st.claimTimer m))) ∧
        (st.handoverTimerEnds m = true → exec (.handoverAnswerTimeout m) s = .next (s.commit (st.handoverTimer m))) ∧
        (st.followEnds m = true → exec (.followCountExpiry m) s = .next (s.commit (st.followCheck m))) ∧
        (st.dwellEnds m = true → exec (.dwellEnd m) s = .next (s.commit (st.timedPart m))) ∧
        (st.zoneWaitEnds m = true → exec (.zoneTimeout m) s = .next (s.commit (st.timedPart m)))))) ∧
  (∀ (st : Station) (m : MoverId),
    let timed := (st.claimTimer m).handoverTimer m
    let checked := timed.followCheck m
    ((∀ e, timed.entry? m = some e → e.state = .stray) → st.workEntry m = timed) ∧
    (∀ e, timed.entry? m = some e → e.state = .visitor → st.workEntry m = timed.visitorWork m) ∧
    (∀ e x, timed.entry? m = some e → e.state = .resident ∨ e.state = .handing → checked.entry? m = some x →
      (x.motion.isFaulted = true → st.workEntry m = checked.trackPart m) ∧
      (x.motion.isFaulted = false → ∀ started : Station,
        (((x.motion = .dwell ∧ ∃ y, (checked.timedPart m).entry? m = some y ∧ y.motion = .idle) ∧
            started = checked.timedPart m) ∨
          (¬(x.motion = .dwell ∧ ∃ y, (checked.timedPart m).entry? m = some y ∧ y.motion = .idle) ∧
            started = (checked.timedPart m).startPart m)) →
        ∀ y, started.entry? m = some y →
          let rest := fun handed : Station => ((handed.claimPart m).demandPart m x.velocity).trackPart m
          (y.motion = .moving → st.workEntry m =
            rest (((started.stepMoving m).transferPart m).releasePart m y.direction)) ∧
          (y.motion = .stopping → st.workEntry m =
            rest (((started.stepStopping m).transferPart m).releasePart m y.direction)) ∧
          (y.motion ≠ .moving → y.motion ≠ .stopping → st.workEntry m = rest (started.transferPart m))))) ∧
  (∀ (st : Station) (m : MoverId) (e : Entry), st.Tabled → st.entry? m = some e →
    let held := fun g : ZoneNo => (∃ k, st.localIndex g = some k ∧ k ∈ st.holdings m) ∨
      (st.localIndex g = none ∧ g ∈ e.remote)
    let starts := e.motion = .idle ∧ e.queue ≠ [] ∧ st.drive = .on ∧ st.mode = .online ∧ ∀ g ∈ bodyZones e.setpoint, held g
    (starts → st.startPart m = st.modifyEntry m fun x =>
      { x with active := e.queue.head?, queue := e.queue.tail, motion := .moving, velocity := 0, zoneWaitCount := 0,
               denied := none }) ∧
    (¬starts → st.startPart m = st) ∧
    (let passes := fun d : Side => e.state = .resident ∧ e.motion.isFaulted = false ∧ e.takenDue = none ∧
       (st.side d).state = .opened ∧
       ((d = .lower ∧ e.setpoint < st.conf.origin) ∨ (d = .upper ∧ st.segmentEnd ≤ e.setpoint))
     (∀ d, passes d → st.transferPart m =
       { (st.modifyEntry m fun x =>
           { x with state := .handing, claim := none, claimDue := none,
                    handover := some { target := st.neighbourAt d, travelled := e.claim, phase := .ready st.freshDue,
                                       attempts := 0, waiting := 0 } }) with
         nextPlace := st.nextPlace + 1 }) ∧
     ((∀ d, ¬passes d) → st.transferPart m = st)) ∧
    (∀ d : Int, d = 1 ∨ d = -1 →
      let behind := fun g : ZoneNo =>
        (d = 1 ∧ g * 3000 + 2999 + 2000 < e.setpoint) ∨ (d = -1 ∧ e.setpoint + 1999 < g * 3000)
      (e.state ≠ .resident → st.releasePart m d = st) ∧
      (e.state = .resident → ∃ (st' : Station) (e' : Entry), st.releasePart m d = st' ∧ st'.kept = st.kept ∧
        st'.outbox = st.outbox ∧ st'.entry? m = some e' ∧
        e' = { e with remoteLower := e'.remoteLower, remoteUpper := e'.remoteUpper, releaseLower := e'.releaseLower, releaseUpper := e'.releaseUpper,
                      claim := e'.claim, claimDue := e'.claimDue, denied := e'.denied } ∧
        (∀ g, g ∈ e'.remote ↔ g ∈ e.remote ∧ ¬behind g) ∧
        (∀ side g, g ∈ e'.releaseZones side ↔
          g ∈ e.releaseZones side ∨ (g ∈ e.remote ∧ behind g ∧ st.sideOfZone g = side)) ∧
        (∀ a b, e.releaseLower = none → e.releaseUpper = none → e'.releaseLower = some a → e'.releaseUpper = some b →
          (d = 1 → a.due.place < b.due.place) ∧ (d = -1 → b.due.place < a.due.place)) ∧
        (∃ (x y : Station) (owed : Entry), x.kept = st.kept ∧ x.zones = st.zones ∧ x.coils = st.coils ∧
          x.sendList = st.sendList ∧ (∀ m', m' ≠ m → x.entry? m' = st.entry? m') ∧ x.entry? m = some owed ∧
          owed = { e with remoteLower := owed.remoteLower, remoteUpper := owed.remoteUpper, releaseLower := owed.releaseLower, releaseUpper := owed.releaseUpper } ∧
          (let own := (st.holdings m).filter fun k => decide (behind (st.firstZone + k))
           y = (if d = 1 then own else own.reverse).foldl (fun x k => if x.holds m k then x.releaseZone k else x) x) ∧
          st'.zones = y.zones ∧ st'.coils = y.coils ∧ st'.sendList = y.sendList ∧
          ∀ m', m' ≠ m → st'.entry? m' = y.entry? m') ∧
        ∀ (k : Nat) (z : Zone), st.zones[k]? = some z →
          (z.state.heldBy m = true → behind (st.firstZone + k) → st'.holds m k = false ∧
            (z.waiting = [] → st'.zones[k]? = some { state := .free, grantOwed := none, waiting := [] }) ∧
            ∀ coil, st'.coils[k]? = some coil →
              coil.assigned = none ∧ coil.preloaded = .unassigned ∧ coil.applied = .unassigned) ∧
          (z.state ≠ .free → ¬(z.state.heldBy m = true ∧ behind (st.firstZone + k)) → st'.zones[k]? = some z))) ∧
    (∀ before : Int, e.state = .resident ∨ e.state = .handing → e.motion.isFaulted = false →
      let error : Int := match e.actual with
        | some a => (e.setpoint : Int) - a
        | none => 0
      let demand := max (-1000) (min 1000 (((st.conf.gain : Int) * error).tdiv 64 + 8 * (e.velocity - before)))
      ∃ coils : List Coil,
        st.demandPart m before = { (st.modifyEntry m fun x => { x with demand := demand }) with coils := coils } ∧
        coils.length = st.coils.length ∧
        ∀ (k : Nat) (old new : Coil), st.coils[k]? = some old → coils[k]? = some new →
          let duty := if e.setpoint < (st.firstZone + k) * 3000 + 1500 then demand else -demand
          let assigned := st.holds m k = true ∧ st.firstZone + k ∈ bodyZones e.setpoint
          (assigned → new = { old with
            assigned := some m
            preloaded := .drive (if 0 < duty then .plus else if duty < 0 then .minus else .zero)
              (duty.natAbs * st.conf.pwmTop / 1000) }) ∧
          (¬assigned → old.assigned = some m →
            new = { old with assigned := none, preloaded := .unassigned, applied := .unassigned }) ∧
          (¬assigned → old.assigned ≠ some m → new = old)) ∧
    (let touches := fun d : Side => (st.side d).state ≠ .edge ∧
       ((d = .lower ∧ e.setpoint < st.conf.origin + 2000) ∨ (d = .upper ∧ st.segmentEnd ≤ e.setpoint + 1999))
     ((∀ d, ¬touches d) → st.trackPart m = st.modifyEntry m fun x => { x with trackDue := none }) ∧
     (∀ d, touches d → (d = .upper → ¬touches .lower) →
       ((∀ due, e.trackDue ≠ some (d, due)) → st.trackPart m =
         { (st.modifyEntry m fun x => { x with trackDue := some (d, st.freshDue) }) with
           nextPlace := st.nextPlace + 1 }) ∧
       (∀ due, e.trackDue = some (d, due) → st.trackPart m =
         { st with attempt := st.attempt.map fun a =>
             if a.place = due.place then { a with raisedAgain := true } else a }))))

/-- R50 with the ends of R51, R55 and R57, R60 for a STOPPING entry, R66 for a HANDING one. A step of an expiry is the step of
these clauses (`ControlPeriodExpiryDoesItsWorkInOrder`). A STOPPING entry in motion keeps its sense (log entry 13). -/
def Obligations.MovingStepByTheProfile : Prop :=
  (∀ (st : Station) (m : MoverId) (e : Entry), st.Tabled → st.entry? m = some e → e.motion = .stopping →
    st.outbox = [] →
    let d : Int := if e.velocity ≠ 0 then (if 0 < e.velocity then 1 else -1)
      else if e.active.any (fun r => e.setpoint < r.target) then 1 else -1
    let step := min (e.velocity.natAbs - st.conf.stopAccel) (st.holdDistance e d)
    (step ≠ 0 → st.stepStopping m = st.modifyEntry m fun x =>
      { x with setpoint := if d = 1 then e.setpoint + step else e.setpoint - step, velocity := d * (step : Int) }) ∧
    (step = 0 → ∃ e' : Entry, (st.stepStopping m).entry? m = some e' ∧ (st.stepStopping m).kept = st.kept ∧
      e'.state = e.state ∧ e'.setpoint = e.setpoint ∧ e'.motion = .idle ∧ e'.velocity = 0 ∧ e'.zoneWaitCount = 0 ∧
      e'.denied = none ∧ e'.active = none ∧ e'.flushedAtStop = 0 ∧ e'.queue = e.queue ∧
      (e.state = .resident → st.ClaimGivenUp (st.stepStopping m) e.claim e e' ∧
        st.ReleasedOffBody (st.stepStopping m) e.setpoint e e') ∧
      (st.stepStopping m).outbox = if e.state = .resident then
        [.moveAborted m (e.active.map fun r => r.tag) e.flushedAtStop] else [])) ∧
  ∀ (st : Station) (m : MoverId) (e : Entry) (r : MoveRecord), st.Tabled → st.entry? m = some e → e.motion = .moving →
    e.active = some r → st.outbox = [] →
    let d : Int := if e.setpoint < r.target then 1 else -1
    let toTarget := if e.setpoint ≤ r.target then r.target - e.setpoint else e.setpoint - r.target
    let hold := st.holdDistance e d
    let step := min (nextSpeed e.velocity.natAbs r.accel r.speed (min toTarget hold)) (min toTarget hold)
    let place := if d = 1 then e.setpoint + step else e.setpoint - step
    (step ≠ toTarget → step ≠ hold →
      st.stepMoving m = st.modifyEntry m fun x => { x with setpoint := place, velocity := d * (step : Int) }) ∧
    (step = toTarget → ∃ e' : Entry, (st.stepMoving m).entry? m = some e' ∧ (st.stepMoving m).kept = st.kept ∧
      e'.state = e.state ∧ e'.setpoint = r.target ∧ e'.velocity = 0 ∧ e'.zoneWaitCount = 0 ∧ e'.denied = none ∧
      e'.queue = e.queue ∧
      (e.state = .resident → st.ClaimGivenUp (st.stepMoving m) e.claim e e' ∧
        st.ReleasedOffBody (st.stepMoving m) r.target e e') ∧
      (∀ dwell, r.dwell = some dwell → 1 ≤ dwell →
        e'.motion = .dwell ∧ e'.dwellRemaining = dwell ∧ e'.active = some r) ∧
      (r.dwell = none ∨ r.dwell = some 0 → e'.motion = .idle ∧ e'.active = none) ∧
      (st.stepMoving m).outbox = if r.report = true ∧ e.state = .resident then [.moveDone m r.tag] else []) ∧
    (step ≠ toTarget → step = hold →
      ((e.state ≠ .resident ∨ e.denied = none) →
        st.stepMoving m = st.modifyEntry m fun x =>
          { x with setpoint := place, velocity := 0, motion := .zoneWait }) ∧
      (∀ (g : ZoneNo) (reason : DenialReason), e.state = .resident → e.denied = some (g, reason) →
        ∃ e' : Entry, (st.stepMoving m).entry? m = some e' ∧ (st.stepMoving m).kept = st.kept ∧
          e'.state = .resident ∧ e'.setpoint = place ∧ e'.velocity = 0 ∧ e'.zoneWaitCount = 0 ∧ e'.denied = none ∧
          e'.active = none ∧ e'.motion = .idle ∧ e'.queue = e.queue ∧
          st.ClaimGivenUp (st.stepMoving m) e.claim e e' ∧ st.ReleasedOffBody (st.stepMoving m) place e e' ∧
          (st.stepMoving m).outbox = [.zoneDenied m g r.tag reason]))

/-- R51 and R52 in an expiry's work, with R55 for a denied zone and R66 for a HANDING entry, and at the counting that
reaches the end (log entry 3). An entry without an active move looks along −1 and ends without a report (log entry 14). -/
def Obligations.DwellAndZoneWaitEnd : Prop :=
  (∀ (st : Station) (m : MoverId) (e : Entry), st.entry? m = some e → st.outbox = [] →
    let hold := st.holdDistance e (if e.active.any (fun r => e.setpoint < r.target) then 1 else -1)
    let waited := min (e.zoneWaitCount + 1) 65536
    (e.motion ≠ .dwell → e.motion ≠ .zoneWait → st.timedPart m = st) ∧
    (e.motion = .dwell → 2 ≤ e.dwellRemaining → (∀ x ∈ st.entries, x.id = m → x = e) →
      st.timedPart m = st.modifyEntry m fun x => { x with dwellRemaining := e.dwellRemaining - 1 }) ∧
    (e.motion = .zoneWait → 1 ≤ hold →
      st.timedPart m = st.modifyEntry m fun x => { x with motion := .moving, velocity := 0 }) ∧
    (e.motion = .zoneWait → hold = 0 →
      (e.state ≠ .resident ∨ (e.denied = none ∧ (st.conf.zoneWaitLimit = 0 ∨ waited ≤ st.conf.zoneWaitLimit)) →
        st.timedPart m = st.modifyEntry m fun x => { x with zoneWaitCount := min (x.zoneWaitCount + 1) 65536 }) ∧
      (∀ (g : ZoneNo) (reason : DenialReason), e.state = .resident → e.denied = some (g, reason) →
        ∃ e' : Entry, (st.timedPart m).entry? m = some e' ∧ (st.timedPart m).kept = st.kept ∧ e'.state = .resident ∧
          e'.motion = .idle ∧ e'.setpoint = e.setpoint ∧ e'.velocity = 0 ∧ e'.zoneWaitCount = 0 ∧ e'.denied = none ∧
          e'.active = none ∧ e'.claim = none ∧ e'.queue = e.queue ∧
          (st.Tabled → st.ClaimGivenUp (st.timedPart m) e.claim e e' ∧
            st.ReleasedOffBody (st.timedPart m) e.setpoint e e') ∧
          (st.timedPart m).outbox = match e.active with
            | some r => [.zoneDenied m g r.tag reason]
            | none => []))) ∧
  ∀ (s : State) (m : MoverId) (e : Entry), s.station.running = true → s.station.entry? m = some e →
    s.station.outbox = [] →
    ((e.state = .resident ∨ e.state = .handing) → e.motion = .dwell → e.dwellRemaining = 1 →
      (∀ x ∈ s.station.entries, x.id = m → x = e) →
      exec (.dwellEnd m) s = .next (s.commit (s.station.modifyEntry m fun x =>
        { x with dwellRemaining := 0, motion := .idle, active := none }))) ∧
    (∀ r : MoveRecord, e.state = .resident → e.motion = .zoneWait → e.denied = none → e.active = some r →
      s.station.holdDistance e (if e.setpoint < r.target then 1 else -1) = 0 →
      1 ≤ s.station.conf.zoneWaitLimit → s.station.conf.zoneWaitLimit < min (e.zoneWaitCount + 1) 65536 →
      ∃ (st : Station) (e' : Entry), exec (.zoneTimeout m) s = .next (s.commit st) ∧ st.kept = s.station.kept ∧
        st.entry? m = some e' ∧ e'.state = .resident ∧ e'.motion = .idle ∧ e'.setpoint = e.setpoint ∧
        e'.velocity = 0 ∧ e'.zoneWaitCount = 0 ∧ e'.denied = none ∧ e'.active = none ∧ e'.claim = none ∧
        e'.queue = e.queue ∧
        (s.station.Tabled → s.station.ClaimGivenUp st e.claim e e' ∧ s.station.ReleasedOffBody st e.setpoint e e') ∧
        st.outbox = [.zoneTimeout m (e.claim.map fun c => c.zone) r.tag])

/-- R62 in an expiry's work; R62 and R142 at the counting that reaches the end (log entry 3), with what R61 and R57
make of an entry that enters FAULTED. -/
def Obligations.CountsEndInFaults : Prop :=
  (∀ (st : Station) (m : MoverId) (e : Entry), st.entry? m = some e →
    let inSpan := st.conf.origin ≤ e.setpoint ∧ e.setpoint < st.segmentEnd
    let checked := (e.state = .resident ∨ e.state = .handing) ∧ e.motion.isFaulted = false ∧ inSpan
    ((¬checked ∨ e.actual = none) → st.followCheck m = st) ∧
    (∀ p : Position, checked → e.actual = some p →
      let beyond := st.conf.followLimit < p - e.setpoint ∨ st.conf.followLimit < e.setpoint - p
      (¬beyond → st.followCheck m = st.modifyEntry m fun x => { x with followCount := 0 }) ∧
      (beyond → e.followCount < 2 →
        st.followCheck m = st.modifyEntry m fun x => { x with followCount := x.followCount + 1 }))) ∧
  ∀ (s : State) (m : MoverId) (e : Entry), s.station.entry? m = some e → s.station.outbox = [] →
    let st := s.station
    let owned := e.state = .resident ∨ e.state = .handing
    let faulted := fun (c : Instr) (cause : FaultCause) (actual : Option Position) (loss follow : Nat) =>
      ∃ (st' : Station) (e' : Entry), exec c s = .next (s.commit st') ∧ st'.kept = st.kept ∧
        st'.entry? m = some e' ∧ e'.state = e.state ∧ e'.motion = .faulted cause ∧ e'.setpoint = e.setpoint ∧
        e'.actual = actual ∧ e'.lossCount = loss ∧ e'.followCount = follow ∧ e'.velocity = 0 ∧ e'.active = none ∧
        e'.queue = [] ∧ e'.dwellRemaining = 0 ∧ e'.zoneWaitCount = 0 ∧ e'.denied = none ∧ e'.flushedAtStop = 0 ∧
        e'.demand = 0 ∧ (∀ c ∈ st'.coils, c.assigned ≠ some m) ∧
        (st.Tabled → e.state = .resident →
          st.ClaimGivenUp st' e.claim e e' ∧ (e.active.isSome = true → st.ReleasedOffBody st' e.setpoint e e')) ∧
        st'.outbox = [.moverFault m cause (e.active.toList.length + e.queue.length) none]
    (∀ p : Position, st.running = true → owned → e.motion.isFaulted = false → e.actual = some p →
      st.conf.origin ≤ e.setpoint → e.setpoint < st.segmentEnd →
      (st.conf.followLimit < p - e.setpoint ∨ st.conf.followLimit < e.setpoint - p) → 2 ≤ e.followCount →
      faulted (.followCountExpiry m) .follow (some p) e.lossCount (e.followCount + 1)) ∧
    (st.mode = .joining ∨ st.mode = .online → e.lossCount = 3 →
      (owned → st.conf.origin ≤ e.setpoint → e.setpoint < st.segmentEnd →
        (e.motion.isFaulted = false → faulted (.lossCountExpiry m) .lost none 4 e.followCount) ∧
        (e.motion.isFaulted = true → exec (.lossCountExpiry m) s = .next (s.commit
          (st.modifyEntry m fun x => { x with lossCount := 4, actual := none })))) ∧
      (e.state = .stray → ∃ st' : Station, exec (.lossCountExpiry m) s = .next (s.commit st') ∧
        st'.kept = st.kept ∧ st'.outbox = [] ∧ (∀ e', st'.entry? m = some e' → e'.state = .visitor) ∧
        (st.claimedZones m = [] → st'.entry? m = none)))

/-- R45 for the entry, R124 for who decides it; R44 for the record. -/
def Obligations.MoveJoinsTheQueue : Prop :=
  ∀ (seq m : Nat) (p : MoveParams) (s : State) (e : Entry), s.station.mode = .online → 1 ≤ m → m ≤ 4095 →
    moveFieldsOk p = true → s.station.entry? m = some e →
    let refused := fun r : RefuseReason =>
      exec (.move seq m p) s = .next { s with port := s.replied seq .refused (.reason r) }
    let record : MoveRecord := { tag := p.tag, target := p.target, speed := p.speed, accel := p.accel,
                                 dwell := if p.flags.testBit 1 then some p.dwell else none,
                                 report := p.flags.testBit 0 }
    (e.state = .handing → refused .inTransit) ∧ (e.state = .stray → refused .stray) ∧
    (e.state = .resident →
      (e.motion.isFaulted = true → refused .faulted) ∧ (e.motion = .stopping → refused .stopping) ∧
      (e.motion.isFaulted = false → e.motion ≠ .stopping → 8 ≤ e.queue.length → refused .queueFull) ∧
      (e.motion.isFaulted = false → e.motion ≠ .stopping → e.queue.length < 8 →
        exec (.move seq m p) s = .next
          { s.commit (s.station.modifyEntry m fun x => { x with queue := x.queue ++ [record] }) with
            port := s.replied seq .ok .empty }))

/-- R58 by motion state, with the end of a move of R57 and the denied zone of R54; an IDLE mover's outstanding claim stays
(log entry 34). -/
def Obligations.AbortEndsTheMoves : Prop :=
  ∀ (seq m : Nat) (s : State) (e : Entry), s.station.mode = .online → 1 ≤ m → m ≤ 4095 → s.station.outbox = [] →
    s.station.entry? m = some e →
    let refused := fun r : RefuseReason =>
      exec (.abort seq m) s = .next { s with port := s.replied seq .refused (.reason r) }
    let done := fun st : Station =>
      exec (.abort seq m) s = .next { s.commit st with port := s.replied seq .ok (.number e.queue.length) }
    (e.state = .handing → refused .inTransit) ∧ (e.state = .stray → refused .stray) ∧
    (e.state = .resident →
      (e.motion.isFaulted = true → refused .faulted) ∧ (e.motion = .stopping → refused .stopping) ∧
      (e.motion = .moving → ∃ (st : Station) (e' : Entry), done st ∧ st.kept = s.station.kept ∧ st.outbox = [] ∧
        st.entry? m = some e' ∧ e'.state = .resident ∧ e'.motion = .stopping ∧ e'.active = e.active ∧
        e'.velocity = e.velocity ∧ e'.setpoint = e.setpoint ∧ e'.queue = [] ∧ e'.claim = none ∧
        e'.denied = none ∧ e'.flushedAtStop = e.queue.length ∧ e'.remoteLower = e.remoteLower ∧ e'.remoteUpper = e.remoteUpper ∧
        (s.station.Tabled → s.station.ClaimGivenUp st e.claim e e')) ∧
      (e.motion = .zoneWait ∨ e.motion = .dwell → ∃ (st : Station) (e' : Entry), done st ∧
        st.kept = s.station.kept ∧ st.outbox = [.moveAborted m (e.active.map fun r => r.tag) e.queue.length] ∧
        st.entry? m = some e' ∧ e'.state = .resident ∧ e'.motion = .idle ∧ e'.active = none ∧ e'.velocity = 0 ∧
        e'.setpoint = e.setpoint ∧ e'.queue = [] ∧ e'.claim = none ∧ e'.denied = none ∧ e'.dwellRemaining = 0 ∧
        e'.zoneWaitCount = 0 ∧ (∀ d, e'.remoteToward d = (e.remoteToward d).filter fun g => (bodyZones e.setpoint).contains g) ∧
        (s.station.Tabled → s.station.ClaimGivenUp st e.claim e e' ∧ s.station.ReleasedOffBody st e.setpoint e e')) ∧
      (e.motion = .idle → done
        { s.station.modifyEntry m (fun x => { x with queue := [], denied := none }) with
          outbox := if 1 ≤ e.queue.length then [.moveAborted m none e.queue.length] else [] }))

/-- R63, with R81 for the lost-handover target and R43 for a claim, a local one too (log entry 49). -/
def Obligations.ClearReturnsToIdle : Prop :=
  ∀ (seq m : Nat) (s : State) (e : Entry), s.station.mode = .online → 1 ≤ m → m ≤ 4095 → s.station.outbox = [] →
    s.station.Tabled → s.station.entry? m = some e →
    let st := s.station
    let refused := fun r : RefuseReason =>
      exec (.clear seq m) s = .next { s with port := s.replied seq .refused (.reason r) }
    let heldFor := fun g : ZoneNo => (∃ k, st.localIndex g = some k ∧ k ∈ st.holdings m) ∨
      (st.localIndex g = none ∧ g ∈ e.remote)
    (e.state = .handing → refused .inTransit) ∧ (e.state = .stray → refused .stray) ∧
    (e.state = .resident →
      (e.motion.isFaulted = false → refused .badState) ∧
      (e.motion.isFaulted = true →
        (e.actual = none → refused .drift) ∧
        (∀ p : Position, e.actual = some p →
          ((∃ g ∈ bodyZones p, ¬heldFor g) → refused .drift) ∧
          ((∀ g ∈ bodyZones p, heldFor g) → ∃ (st' : Station) (e' : Entry),
            exec (.clear seq m) s = .next { s.commit st' with port := s.replied seq .ok .empty } ∧
            st'.kept = st.kept ∧ st'.outbox = [] ∧ st'.entry? m = some e' ∧ e'.state = .resident ∧
            e'.motion = .idle ∧ e'.setpoint = p ∧ e'.actual = some p ∧ e'.velocity = 0 ∧ e'.followCount = 0 ∧
            e'.lossCount = 0 ∧ e'.lostTarget = none ∧ e'.queue = e.queue ∧ e'.claim = none ∧
            (∀ c : Claim, e.claim = some c → st.localIndex c.zone = none → e.cancelDue = none →
              (1 ≤ c.sends → ∃ due, e'.cancelDue = some (c.zone, due)) ∧
              (c.sends = 0 → st.attempt = none → e'.cancelDue = none)) ∧
            (∀ d, e'.remoteToward d = (e.remoteToward d).filter fun g => (bodyZones p).contains g) ∧
            ∀ k ∈ st.holdings m,
              (st.firstZone + k ∈ bodyZones p → st'.zones[k]? = st.zones[k]?) ∧
              (st.firstZone + k ∉ bodyZones p → st'.holds m k = false)))))

/-- R59: each as by an ABORT (R58), in ascending mover ID (log entry 41). A mover that waits for this station in a list
beside that of its outstanding claim (`ClaimInPlace` shuts that out, R10) could be denied there by a later one's release,
and record that. -/
def Obligations.HaltTreatsEveryActiveMover : Prop :=
  ∀ (seq : Nat) (s : State), s.station.mode = .online → s.station.outbox = [] → s.station.Tabled →
    let resting := fun e : Entry => e.state = .resident ∧ (e.motion = .zoneWait ∨ e.motion = .dwell)
    let moving := fun e : Entry => e.state = .resident ∧ e.motion = .moving
    ∃ st : Station,
      exec (.halt seq) s = .next { s.commit st with
        port := s.replied seq .ok (.numbers
          (s.station.entries.countP fun e => decide (resting e) || decide (moving e))
          (s.station.entries.countP fun e => e.state = .handing)) } ∧
      st.kept = s.station.kept ∧
      st.outbox = (s.station.entries.filter fun e => decide (resting e)).map
        (fun e => .moveAborted e.id (e.active.map fun r => r.tag) e.queue.length) ∧
      ∀ e ∈ s.station.entries, e.state = .resident ∨ e.state = .handing →
        ∃ e' : Entry, st.entry? e.id = some e' ∧ e'.state = e.state ∧ e'.setpoint = e.setpoint ∧
          (moving e → e'.motion = .stopping ∧ e'.active = e.active ∧ e'.velocity = e.velocity ∧ e'.queue = [] ∧
            e'.flushedAtStop = e.queue.length ∧ e'.claim = none ∧
            (s.station.ClaimInPlace e → e'.denied = none ∧ s.station.ClaimGivenUp st e.claim e e')) ∧
          (resting e → e'.motion = .idle ∧ e'.active = none ∧ e'.velocity = 0 ∧ e'.queue = [] ∧
            e'.dwellRemaining = 0 ∧ e'.zoneWaitCount = 0 ∧ e'.claim = none ∧
            (s.station.ClaimInPlace e → e'.denied = none ∧ s.station.ClaimGivenUp st e.claim e e') ∧
            s.station.ReleasedOffBody st e.setpoint e e') ∧
          (¬moving e → ¬resting e → e'.motion = e.motion ∧ e'.active = e.active ∧ e'.velocity = e.velocity ∧
            e'.queue = e.queue ∧ e'.flushedAtStop = e.flushedAtStop)

/-- R89 with the recompute of R152; R65 for the shadow at an expiry and its loss, the row acting at the counting that reaches
the age (log entry 3); an advance past the track's end is a free value (log entry 11). -/
def Obligations.TrackSetsTheShadow : Prop :=
  ∀ (s : State) (m : MoverId), s.station.outbox = [] →
    let st := s.station
    (∀ (f : RxFrame) (rest : List RxFrame) (p : Position) (v d : Int), st.Ready f rest (.track m p v d) →
      ((∀ e, st.entry? m = some e → e.state = .visitor → e.owner ≠ some f.source) →
        exec .trackFrame s = .next (s.commit { st with rxQueue := rest })) ∧
      (∀ e : Entry, st.entry? m = some e → e.state = .visitor → e.owner = some f.source →
        ∃ coils : List Coil,
          exec .trackFrame s = .next (s.commit
            { (st.modifyEntry m fun x =>
                { x with shadow := some { setpoint := p, velocity := v, demand := d, age := 0, valid := true },
                         demand := d }) with
              rxQueue := rest, coils := coils }) ∧
          coils.length = st.coils.length ∧
          ∀ (k : Nat) (before after : Coil), st.coils[k]? = some before → coils[k]? = some after →
            let duty := if p < (st.firstZone + k) * 3000 + 1500 then d else -d
            (st.holds m k = true ∧ st.firstZone + k ∈ bodyZones p →
              after.assigned = some m ∧ after.applied = before.applied ∧
              after.preloaded = .drive (if 0 < duty then .plus else if duty < 0 then .minus else .zero)
                (duty.natAbs * st.conf.pwmTop / 1000)) ∧
            (¬(st.holds m k = true ∧ st.firstZone + k ∈ bodyZones p) →
              (before.assigned = some m →
                after.assigned = none ∧ after.preloaded = .unassigned ∧ after.applied = .unassigned) ∧
              (before.assigned ≠ some m → after = before)))) ∧
    (∀ e : Entry, st.entry? m = some e → e.state = .visitor →
      (st.running = true → e.shadowEnds = true → exec (.trackLoss m) s = .next (s.commit (st.visitorWork m))) ∧
      ∃ (st' : Station) (e' : Entry), st.visitorWork m = st' ∧ st'.kept = st.kept ∧ st'.zones = st.zones ∧
        st'.entry? m = some e' ∧ e' = { e with shadow := e'.shadow, demand := e'.demand } ∧
        (e.shadow = none → e'.shadow = none ∧ e'.demand = 0 ∧ st'.outbox = []) ∧
        (∀ w : Shadow, e.shadow = some w →
          (w.valid = false → e'.shadow = some w ∧ e'.demand = 0 ∧ st'.outbox = []) ∧
          (w.valid = true → w.age < 3 → e'.demand = w.demand ∧ st'.outbox = [] ∧ ∃ p : Position,
            e'.shadow = some { w with setpoint := p, age := w.age + 1 } ∧ p ≤ 16777215 ∧
            (0 ≤ (w.setpoint : Int) + w.velocity → (w.setpoint : Int) + w.velocity ≤ 16777215 →
              (p : Int) = (w.setpoint : Int) + w.velocity) ∧
            ∀ (k : Nat) (coil : Coil), st'.coils[k]? = some coil →
              (coil.assigned = some m ↔ st.holds m k = true ∧ st.firstZone + k ∈ bodyZones p)))) ∧
    (∀ (e : Entry) (w : Shadow), st.running = true → st.entry? m = some e → e.state = .visitor →
      e.shadow = some w → w.valid = true → 3 ≤ w.age →
      ∃ (st' : Station) (e' : Entry), exec (.trackLoss m) s = .next (s.commit st') ∧ st'.kept = st.kept ∧
        st'.entry? m = some e' ∧ e' = { e with shadow := some { w with valid := false }, demand := 0 } ∧
        st'.zones = st.zones ∧ (∀ c ∈ st'.coils, c.assigned ≠ some m) ∧ st'.outbox = [.trackLoss m])

/-- R71 decides; R72 to R75 make the take, an entry delivered FAULTED keeping its cause, and R76 and R77 answer what is not
taken. The entry is RESIDENT from the take's start (log entry 50), and zones and claims are settled in ascending local
index (log entry 41), each list examined in its turn (`ReleaseAndCancelFreeTheirZones` states `releaseZone` and
`examine`). -/
def Obligations.HandoverIsTakenRefusedOrAnsweredAgain : Prop :=
  ∀ (s : State) (f : RxFrame) (rest : List RxFrame) (c : HandoverContent), s.station.Ready f rest (.handover c) →
    s.station.outbox = [] → s.station.Tabled →
    let st := s.station
    let n := f.source
    let m := c.mover
    let refused := fun r : HandoverRefusal => exec .handoverFrame s = .next (s.commit (st.replying rest n (.refused m r)))
    let tripped := ∃ cause, st.drive = .tripped cause
    let marked := ∃ d, st.sideOfAddress n = some d ∧ (st.side d).trippedMark = true ∧ st.bodyTouches c.setpoint d = true
    (st.mode ≠ .online → refused .state) ∧
    (st.mode = .online →
      (st.entry? m = none → refused .unknown) ∧
      (∀ e : Entry, st.entry? m = some e →
        (e.state = .stray → refused .unknown) ∧
        (e.state = .visitor → e.owner ≠ some n → refused .conflict) ∧
        (e.state = .resident ∨ e.state = .handing → e.previousOwner ≠ some n → refused .conflict) ∧
        (e.state = .resident ∨ e.state = .handing → e.previousOwner = some n →
          (e.state = .resident ∧ e.takenDue.isSome = true →
            exec .handoverFrame s = .next (s.commit { st with rxQueue := rest })) ∧
          (¬(e.state = .resident ∧ e.takenDue.isSome = true) →
            exec .handoverFrame s = .next (s.commit (st.replying rest n (.taken m))))) ∧
        (e.state = .visitor → e.owner = some n → ∃ (st' : Station) (e' : Entry) (due : Due),
          exec .handoverFrame s = .next (s.commit st') ∧
          st'.kept = ({ st with rxQueue := rest } : Station).kept ∧ st'.entry? m = some e' ∧ e'.state = .resident ∧
          e'.owner = some st.own ∧ e'.setpoint = c.setpoint ∧ e'.previousOwner = some n ∧
          e'.takenDue = some (n, due) ∧ e'.actual = none ∧ e'.lossCount = 0 ∧ e'.followCount = 0 ∧
          e'.shadow = none ∧ e'.demand = 0 ∧ e'.handover = none ∧ e'.lostTarget = none ∧
          (c.motion.isFaulted = true ∨ (¬tripped ∧ ¬marked) →
            e'.motion = c.motion ∧ e'.velocity = c.velocity ∧ e'.active = c.active ∧ e'.queue = c.queue ∧
            e'.dwellRemaining = c.dwellRemaining ∧ e'.zoneWaitCount = c.zoneWaitCount ∧
            e'.flushedAtStop = c.flushedAtStop ∧ e'.denied = c.denied ∧ (c.claim = none → e'.claim = none) ∧
            (∀ q : CarriedClaim, c.claim = some q →
              (∀ k : Nat, st.localIndex q.zone = some k →
                let queued := some { zone := q.zone, phase := .queued, sends := 0, periods := 0, place := 0 }
                (st.holds m k = true → e'.claim = none) ∧ (st.claims m k = false → e'.claim = none) ∧
                (st'.holds m k = false → st'.claims m k = true → e'.claim = queued) ∧
                (st.holds m k = false → st.claims m k = true → (∀ z, st.zones[k]? = some z → z.state ≠ .free) →
                  e'.claim = queued ∧ st'.claims m k = true)) ∧
              (st.localIndex q.zone = none → ∀ d, st.sideOfAddress n = some d →
                let inSenders := st.sideOfZone q.zone = d ∧ (st.side d).state ≠ .edge ∧
                  ∀ origin coils, (st.side d).span = some (origin, coils) →
                    (d = .lower → origin / 3000 ≤ q.zone) ∧ (d = .upper → q.zone < origin / 3000 + coils)
                (inSenders → e'.claimDue = none ∧
                  e'.claim = some { zone := q.zone, phase := .queued, sends := 1, periods := 0, place := 0 }) ∧
                (¬inSenders → e'.claim = none))) ∧
            (∀ g, g ∈ e'.remote ↔ c.senderRun.1 ≤ g ∧ g < c.senderRun.1 + c.senderRun.2 ∧
              st.localIndex g = none ∧ st.sideOfAddress n = some (st.sideOfZone g)) ∧
            st'.outbox = [] ∧
            (let named := fun g : ZoneNo => ∃ q, c.claim = some q ∧ q.zone = g
             let entered : Station :=
               { st.modifyEntry m fun x => { x with state := .resident } with rxQueue := rest }
             let zones := (st.holdings m).foldl (fun (x : Station) k =>
               if (c.receiverRun.1 ≤ st.firstZone + k ∧ st.firstZone + k < c.receiverRun.1 + c.receiverRun.2) ∨
                   named (st.firstZone + k) then
                 { x with zones := x.zones.modify k fun z =>
                     if z.state.heldBy m then { z with state := .held m st.own, grantOwed := none } else z }
               else x.releaseZone k) entered
             let claims := (zones.claimedZones m).foldl (fun (x : Station) k =>
               if named (st.firstZone + k) then
                 { x with zones := x.zones.modify k fun z => { z with waiting := z.waiting.map fun w =>
                     if w.mover = m then { w with station := st.own, entryFlag := false, queuedOwed := none } else w } }
               else ({ x with zones := x.zones.modify k fun z =>
                 { z with waiting := z.waiting.filter fun w => w.mover ≠ m } } : Station).examine [k]) zones
             st'.zones = claims.zones ∧ st'.sendList = claims.sendList ∧
               ∀ m', m' ≠ m → st'.entry? m' = claims.entry? m') ∧
            ∀ k ∈ st.holdings m,
              let g := st.firstZone + k
              let kept := (c.receiverRun.1 ≤ g ∧ g < c.receiverRun.1 + c.receiverRun.2) ∨
                ∃ q, c.claim = some q ∧ q.zone = g
              (kept → ∀ z, st.zones[k]? = some z → ∃ z', st'.zones[k]? = some z' ∧
                z'.state = .held m st.own ∧ z'.grantOwed = none ∧ z'.waiting.length = z.waiting.length) ∧
              (¬kept → st'.holds m k = false)) ∧
          (tripped ∨ marked → c.motion.isFaulted = false →
            e'.motion = (if marked then .faulted .neighbourTrip else .faulted .driveTrip) ∧ e'.active = none ∧
            e'.queue = [] ∧ e'.velocity = 0 ∧ e'.claim = none ∧
            st'.outbox = [.moverFault m (if marked then .neighbourTrip else .driveTrip)
              (c.active.toList.length + c.queue.length) none] ∧
            (c.active.isSome = true → (∀ g ∈ e'.remote, g ∈ bodyZones c.setpoint) ∧
              ∀ k ∈ st.holdings m, st.firstZone + k ∉ bodyZones c.setpoint → st'.holds m k = false)))))

/-- R78 and R82 with the relabelling of R33; R134 for the watch table. `takenSends` is step 1 of R78: the runs of RELEASE due
toward the other side, each as long as it can be, then the CANCEL. The entry goes when its mover holds no own zone (R13,
R15), a claim of it staying in its list (log entry 52). -/
def Obligations.TakenPassesTheMoverOn : Prop :=
  ∀ (s : State) (f : RxFrame) (rest : List RxFrame) (m : MoverId), s.station.outbox = [] →
    let st := s.station
    let n := f.source
    let watched := st.watchMode = .all ∨ (st.watchMode = .list ∧ m ∈ st.watchList)
    let report : List ReportBody := if watched then [.watchOwner m f.source f.destination] else []
    (st.Ready f rest (.taken m) → f.destination = st.own → st.Tabled →
      let applies := fun e : Entry => (e.state = .handing ∧ ∃ h, e.handover = some h ∧ h.target = n) ∨
        (e.state = .resident ∧ e.motion = .faulted .handoverLost ∧ e.lostTarget = some n)
      ((∀ e, st.entry? m = some e → ¬applies e) →
        exec .takenFrame s = .next (s.commit { st with rxQueue := rest, outbox := report })) ∧
      (∀ e : Entry, st.entry? m = some e → applies e → ∃ (st' : Station) (later : List (Address × Frame)),
        exec .takenFrame s = .next (s.commit st') ∧ st'.kept = ({ st with rxQueue := rest } : Station).kept ∧
        st'.outbox = report ∧
        st'.sendList.map (fun l => (l.destination, l.content)) =
          st.sendList.map (fun l => (l.destination, l.content)) ++ st.takenSends n e ++ later ∧
        (∀ d : Side, st.sideOfAddress n = some d →
          let other : Side := if d = .lower then .upper else .lower
          let toward := (st.side other).neighbour.getD 63
          ∃ (runs : List (ZoneNo × Nat)) (asked : List ZoneNo),
            (runs.flatMap fun r => (List.range r.2).map (r.1 + ·)) = e.releaseZones other ∧ (∀ r ∈ runs, 1 ≤ r.2) ∧
            (∀ i a b, runs[i]? = some a → runs[i + 1]? = some b → b.1 ≠ a.1 + a.2) ∧
            (∀ g, g ∈ asked ↔ ∃ due, e.cancelDue = some (g, due) ∧ st.sideOfZone g = other) ∧ asked.length ≤ 1 ∧
            st.takenSends n e =
              runs.map (fun r => (toward, .release m r.1 r.2)) ++ asked.map fun g => (toward, .cancel m g)) ∧
        (st.holdings m ≠ [] →
          st'.entry? m = some { Entry.blank m .visitor with owner := some n, actual := e.actual } ∧
          ∀ (k : Nat) (z : Zone), st.zones[k]? = some z → ∃ z' : Zone, st'.zones[k]? = some z' ∧
            z'.state = (if z.state.heldBy m then .held m n else z.state) ∧
            z'.grantOwed = (if z.state.heldBy m ∧ n = st.own then none else z.grantOwed) ∧
            z'.waiting.map (fun x => (x.mover, x.station)) =
              z.waiting.map (fun x => (x.mover, if x.mover = m then n else x.station))) ∧
        (st.holdings m = [] → st'.entry? m = none ∧
          ∀ (k : Nat) (z : Zone), st.zones[k]? = some z → z.state ≠ .free → ∃ z' : Zone, st'.zones[k]? = some z' ∧
            z'.state = z.state ∧ z'.grantOwed = z.grantOwed ∧
            z'.waiting.map (fun x => (x.mover, x.station)) =
              z.waiting.map (fun x => (x.mover, if x.mover = m then n else x.station))))) ∧
    (st.running = true → st.rxStalled = false → st.rxQueue = f :: rest →
      parseFrame f.kind f.payload = some (.taken m) → f.destination ≠ st.own → f.destination ≠ 63 →
      exec .overheardTaken s = .next (s.commit { st with rxQueue := rest, outbox := report }))

/-- R79, and R80 for an entry FAULTED already. The previous owner goes (R71; log entry 40). -/
def Obligations.RefusedEndsTheHandover : Prop :=
  ∀ (s : State) (f : RxFrame) (rest : List RxFrame) (m : MoverId) (r : HandoverRefusal),
    s.station.Ready f rest (.refused m r) → s.station.outbox = [] →
    let st := s.station
    ((∀ e h, st.entry? m = some e → e.state = .handing → e.handover = some h → h.target ≠ f.source) →
      exec .refusedFrame s = .next (s.commit { st with rxQueue := rest })) ∧
    (∀ (e : Entry) (h : Handover), st.entry? m = some e → e.state = .handing → e.handover = some h →
      h.target = f.source →
      ∃ (st' : Station) (e' : Entry), exec .refusedFrame s = .next (s.commit st') ∧
        st'.kept = ({ st with rxQueue := rest } : Station).kept ∧ st'.entry? m = some e' ∧ e'.state = .resident ∧
        e'.handover = none ∧ e'.claim = none ∧
        e'.previousOwner = none ∧ e'.setpoint = e.setpoint ∧
        e'.actual = e.actual ∧ (∀ d, e'.remoteToward d = (e.remoteToward d).filter fun g => (bodyZones e.setpoint).contains g) ∧
        (st.Tabled → st.ClaimGivenUp st' h.travelled e e' ∧ st.ReleasedOffBody st' e.setpoint e e') ∧
        (∀ cause, e.motion = .faulted cause → e'.motion = .faulted cause ∧ st'.outbox = []) ∧
        (e.motion.isFaulted = false → e'.motion = .faulted .handoverRefused ∧ e'.active = none ∧ e'.queue = [] ∧
          e'.velocity = 0 ∧ e'.demand = 0 ∧
          st'.outbox = [.moverFault m .handoverRefused (e.active.toList.length + e.queue.length) (some r)]))

/-- R105 and R106, a destination above 63 matching no filter (log entry 45); `readLine` reads the bits as R91 and R92 give
(`FrameRoundTrip`). No frame comes in while the station is not running or sends itself (log entry 4). -/
def Obligations.FrameReceivedIsFilteredAndQueued : Prop :=
  ∀ (bits : List Bool) (s : State),
    let st := s.station
    (st.running = false ∨ st.attempt.isSome = true → exec (.frameReceived bits) s = .next s) ∧
    (st.running = true → st.attempt = none →
      (readLine bits = .nothing → exec (.frameReceived bits) s = .next (s.commit st)) ∧
      (readLine bits = .error → exec (.frameReceived bits) s = .next (s.commit
        { st with
          linkCounters := { st.linkCounters with receiveErrors := min (st.linkCounters.receiveErrors + 1) 65535 }
          ackDriven := false })) ∧
      (∀ f : RxFrame, readLine bits = .frame f →
        let watched := f.kind = 11 ∧ f.destination ≤ 63 ∧ (st.watchMode = .all ∨
          (st.watchMode = .list ∧ ∃ (a b : Byte) (rest : List Byte), f.payload = a :: b :: rest ∧
            a.toNat * 256 + b.toNat ∈ st.watchList))
        let accepted := f.destination = st.own ∨ f.destination = 63 ∨ watched
        (¬accepted → exec (.frameReceived bits) s = .next (s.commit { st with ackDriven := false })) ∧
        (accepted → st.rxQueue.length < 8 → exec (.frameReceived bits) s = .next (s.commit
          { st with rxQueue := st.rxQueue ++ [f], ackDriven := decide (f.destination = st.own ∧ f.kind ≠ 13) })) ∧
        (accepted → 8 ≤ st.rxQueue.length → exec (.frameReceived bits) s = .next (s.commit
          { st with
            linkCounters :=
              if f.destination = st.own then
                { st.linkCounters with turnedAway := min (st.linkCounters.turnedAway + 1) 65535 }
              else { st.linkCounters with missedFrames := min (st.linkCounters.missedFrames + 1) 65535 }
            ackDriven := false }))))

/-- Steps 1 to 5 of R107 with R108 and the table of R109 (a directed kind sent to 63 is tested as any other, log entry 16);
`takingRow` names the row that takes a frame, and every other taking changes nothing (log entry 4); `handOn` is what the
frame's block then does (step 6), which the statements on its row give. A stalled head is tested again by `retestHead`, at
an expiry (`ControlPeriodExpiryDoesItsWorkInOrder`) and when a Send List entry frees; step 4 is where its taking
resumes. -/
def Obligations.HeadIsDiscardedForeignOrStalled : Prop :=
  (∀ (st : Station) (n : Address),
    let handingTo := fun e : Entry => e.state = .handing ∧ ∃ h, e.handover = some h ∧ h.target = n
    (∀ m g flag, st.sendsNeeded n (.claim m g flag) = 1) ∧
    (∀ m g,
      let matching := ∃ e c, st.entry? m = some e ∧ e.state = .resident ∧ e.claim = some c ∧ c.zone = g ∧
        st.localIndex g = none ∧ st.sideOfAddress n = some (st.sideOfZone g)
      let returned := ¬matching ∧ ∀ e, st.entry? m = some e → e.state = .stray ∨
        (e.state = .visitor ∧ e.owner ≠ some n) ∨ (e.state = .handing ∧ ¬handingTo e)
      (returned → st.sendsNeeded n (.grant m g) = 1) ∧ (¬returned → st.sendsNeeded n (.grant m g) = 0)) ∧
    (∀ c : HandoverContent,
      let taken := st.mode = .online ∧ ∃ e, st.entry? c.mover = some e ∧ e.state = .visitor ∧ e.owner = some n
      let answered := st.mode = .online ∧ ∃ e, st.entry? c.mover = some e ∧ e.state = .resident ∧
        e.previousOwner = some n ∧ e.takenDue.isSome = true
      (taken ∨ answered → st.sendsNeeded n (.handover c) = 0) ∧
      (¬(taken ∨ answered) → st.sendsNeeded n (.handover c) = 1)) ∧
    (∀ m,
      let applies := fun e : Entry => handingTo e ∨
        (e.state = .resident ∧ e.motion = .faulted .handoverLost ∧ e.lostTarget = some n)
      (∀ e, st.entry? m = some e → applies e → st.sendsNeeded n (.taken m) = (st.takenSends n e).length) ∧
      ((∀ e, st.entry? m = some e → ¬applies e) → st.sendsNeeded n (.taken m) = 0)) ∧
    (∀ tag m kind,
      let replied := st.mode = .online ∧ ∃ e, st.entry? m = some e ∧ (e.state = .resident ∨ e.state = .handing)
      (replied → st.sendsNeeded n (.order tag m kind) = 1) ∧ (¬replied → st.sendsNeeded n (.order tag m kind) = 0)) ∧
    ∀ fr : Frame, fr.kind ≠ 3 → fr.kind ≠ 5 → fr.kind ≠ 10 → fr.kind ≠ 11 → fr.kind ≠ 14 → st.sendsNeeded n fr = 0) ∧
  ∀ (s : State) (f : RxFrame) (rest : List RxFrame) (c : Instr), s.station.running = true →
    s.station.outbox = [] → s.station.rxQueue = f :: rest →
    let st := s.station
    (st.rxStalled = false → st.takingRow f = some c →
      (∀ c' : Instr, isTaking c' = true → c' ≠ c → exec c' s = .next (s.commit st)) ∧
      (parseFrame f.kind f.payload = none → exec c s = .next (s.commit
        { st with
          rxQueue := rest
          linkCounters := { st.linkCounters with receiveErrors := min (st.linkCounters.receiveErrors + 1) 65535 } })) ∧
      (∀ fr : Frame, parseFrame f.kind f.payload = some fr → f.destination = st.own ∨ f.destination = 63 →
        let report : List ReportBody := match fr with
          | .taken m =>
            if f.destination = st.own ∧ (st.watchMode = .all ∨ (st.watchMode = .list ∧ m ∈ st.watchList)) then
              [.watchOwner m f.source f.destination]
            else []
          | _ => []
        (fr.neighbourKind = true → st.openNeighbour f.source = false → exec c s = .next (s.commit
          { st with
            rxQueue := rest, outbox := report
            linkCounters :=
              { st.linkCounters with foreignFrames := min (st.linkCounters.foreignFrames + 1) 65535 } })) ∧
        ((fr.neighbourKind = true → st.openNeighbour f.source = true) →
          8 - st.sendList.length < st.sendsNeeded f.source fr →
          exec c s = .next (s.commit { st with rxStalled := true, outbox := report })) ∧
        ((fr.neighbourKind = true → st.openNeighbour f.source = true) →
          st.sendsNeeded f.source fr ≤ 8 - st.sendList.length →
          exec c s = .next (s.commit (({ st with rxQueue := rest, outbox := report } : Station).handOn f.source fr))))) ∧
    (st.rxStalled = false → st.retestHead = st) ∧
    (∀ fr : Frame, st.rxStalled = true → parseFrame f.kind f.payload = some fr →
      let popped : Station := { st with rxQueue := rest, rxStalled := false }
      (fr.neighbourKind = true → st.openNeighbour f.source = false → st.retestHead =
        { popped with
          linkCounters := { st.linkCounters with foreignFrames := min (st.linkCounters.foreignFrames + 1) 65535 } }) ∧
      ((fr.neighbourKind = true → st.openNeighbour f.source = true) →
        (8 - st.sendList.length < st.sendsNeeded f.source fr → st.retestHead = st) ∧
        (st.sendsNeeded f.source fr ≤ 8 - st.sendList.length → st.retestHead = popped.handOn f.source fr))) ∧
    (st.rxStalled = true → isTaking c = true →
      (rest.find? (fun g => g.kind = 1 ∨ g.kind = 2) = none → exec c s = .next (s.commit st)) ∧
      (∀ g : RxFrame, rest.find? (fun g => g.kind = 1 ∨ g.kind = 2) = some g →
        (st.takingRow g ≠ some c → exec c s = .next (s.commit st)) ∧
        (st.takingRow g = some c → parseFrame g.kind g.payload = none → exec c s = .next (s.commit
          { st with
            rxQueue := f :: rest.erase g
            linkCounters := { st.linkCounters with receiveErrors := min (st.linkCounters.receiveErrors + 1) 65535 } })) ∧
        (∀ fr : Frame, st.takingRow g = some c → parseFrame g.kind g.payload = some fr →
          let taken := ({ st with rxQueue := f :: rest.erase g } : Station).handOn g.source fr
          (st.sideOfAddress g.source = none → taken = { st with rxQueue := f :: rest.erase g }) ∧
          ((∃ l ∈ st.sendList, ∀ l' ∈ taken.sendList, l'.due.place ≠ l.due.place) →
            exec c s = .next (s.commit taken.retestHead)) ∧
          ((∀ l ∈ st.sendList, ∃ l' ∈ taken.sendList, l'.due.place = l.due.place) →
            exec c s = .next (s.commit taken)))))

/-- The choice of R103 among the eligible sends of R100, and the attempt of R94; `mapDues` changes every due mark alike;
rivals are the operand of the row (log entry 23). Nothing starts while the station is not running or sends already (log
entry 4). Before it: every due send with its destination and class (R11, R97, R99), which of them are eligible (R100), and
the content read from the record at the start of an attempt (R11, R25, R39, R69, R88, R99, R117). -/
def Obligations.TransmitStartsTheChosenSend : Prop :=
  (∀ (st : Station) (x : Send),
    let neighbour := fun d : Side => (st.side d).neighbour.getD 63
    let classOf := fun f : Frame => match f with
      | .notice _ | .track .. => 0
      | .handover _ | .taken _ | .refused .. => 1
      | .claim .. | .cancel .. | .grant .. | .queued .. | .denied .. | .deferred .. | .release .. => 2
      | .present _ | .order .. | .orderReply .. => 3
    (x ∈ st.allSends ↔
      (∃ e ∈ st.entries,
        (∃ c due, e.claim = some c ∧ e.claimDue = some due ∧ x = ⟨.claim e.id, neighbour (st.sideOfZone c.zone), 2, due⟩) ∨
        (∃ g due, e.cancelDue = some (g, due) ∧ x = ⟨.cancel e.id, neighbour (st.sideOfZone g), 2, due⟩) ∨
        (∃ d r, e.releaseDue d = some r ∧ x = ⟨.release e.id d, neighbour d, 2, r.due⟩) ∨
        (∃ d due, e.trackDue = some (d, due) ∧ x = ⟨.track e.id, neighbour d, 0, due⟩) ∨
        (∃ h due, e.handover = some h ∧ h.phase = .ready due ∧ x = ⟨.handover e.id, h.target, 1, due⟩) ∨
        (∃ n due, e.takenDue = some (n, due) ∧ x = ⟨.taken e.id, n, 1, due⟩)) ∨
      (∃ k z, st.zones[k]? = some z ∧
        ((∃ m n due, z.state = .held m n ∧ z.grantOwed = some due ∧ x = ⟨.grant k, n, 2, due⟩) ∨
          ∃ c ∈ z.waiting, ∃ due, c.queuedOwed = some due ∧ x = ⟨.queued k c.mover, c.station, 2, due⟩)) ∨
      (∃ d w due, (st.side d).presentDue = some (w, due) ∧ x = ⟨.present d, neighbour d, 3, due⟩) ∨
      (∃ due, st.noticeDue = some due ∧ x = ⟨.notice, 63, 0, due⟩) ∨
      (∃ due, st.joinPresentDue = some due ∧ x = ⟨.joinPresent, 63, 3, due⟩) ∨
      (∃ o ∈ st.orders, ∃ due, o.due = some due ∧ x = ⟨.order o.tag, 63, 3, due⟩) ∨
      ∃ l ∈ st.sendList, x = ⟨.loose, l.destination, classOf l.content, l.due⟩) ∧
    (st.eligible x = true ↔
      (∃ d, x.ref = .present d) ∨ ∀ d, st.sideOfAddress x.destination = some d → (st.side d).state = .opened)) ∧
  (∀ (st : Station) (place : Nat),
    let description := fun fresh wanted : Bool => Frame.present
      { origin := st.conf.origin, coils := st.conf.coils, lower := st.conf.lower, upper := st.conf.upper, fresh := fresh,
        answerWanted := wanted, drive := st.drive }
    (∀ (m : MoverId) (e : Entry), st.entry? m = some e →
      (∀ c, e.claim = some c → ∃ entryFlag : Bool,
        st.frameOf (.claim m) place = some (.claim m c.zone entryFlag) ∧
        (entryFlag = true ↔ ∀ g ∈ e.remote, st.sideOfZone g ≠ st.sideOfZone c.zone)) ∧
      (∀ g due, e.cancelDue = some (g, due) → st.frameOf (.cancel m) place = some (.cancel m g)) ∧
      (∀ d r, e.releaseDue d = some r → r.zones ≠ [] → ∃ first count rest,
        r.zones = (List.range count).map (first + ·) ++ rest ∧ 1 ≤ count ∧ rest.head? ≠ some (first + count) ∧
        st.frameOf (.release m d) place = some (.release m first (min count 16))) ∧
      st.frameOf (.track m) place = some (.track m e.setpoint e.velocity e.demand) ∧
      (∀ h, e.handover = some h → ∃ c : HandoverContent, st.frameOf (.handover m) place = some (.handover c) ∧
        c.mover = e.id ∧ c.motion = e.motion ∧ c.setpoint = e.setpoint ∧ c.velocity = e.velocity ∧
        c.dwellRemaining = e.dwellRemaining ∧ c.zoneWaitCount = min e.zoneWaitCount 65535 ∧
        c.flushedAtStop = e.flushedAtStop ∧ c.active = e.active ∧ c.queue = e.queue ∧ c.denied = e.denied ∧
        c.claim = h.travelled.map (fun q => { zone := q.zone, phase := q.phase, sends := q.sends, periods := q.periods }) ∧
        (let ahead := e.remote.filter fun g => decide (st.sideOfAddress h.target = some (st.sideOfZone g))
         c.receiverRun.2 = ahead.length ∧ ∀ g, ahead.head? = some g → c.receiverRun.1 = g) ∧
        c.senderRun.2 = (st.holdings e.id).length ∧
        ∀ k, (st.holdings e.id).head? = some k → c.senderRun.1 = st.firstZone + k)) ∧
    (∀ m, st.frameOf (.taken m) place = some (.taken m)) ∧
    (∀ (k : Nat) (z : Zone), st.zones[k]? = some z →
      (∀ m n, z.state = .held m n → st.frameOf (.grant k) place = some (.grant m (st.firstZone + k))) ∧
      (∀ (i : Nat) (c : WaitClaim), z.waiting[i]? = some c → (∀ j < i, ∀ b, z.waiting[j]? = some b → b.mover ≠ c.mover) →
        st.frameOf (.queued k c.mover) place = some (.queued c.mover (st.firstZone + k) (i + 1)))) ∧
    (∀ d wanted due, (st.side d).presentDue = some (wanted, due) →
      st.frameOf (.present d) place = some (description (!(st.side d).openedSinceLoading) wanted)) ∧
    st.frameOf .notice place = some (.notice st.drive) ∧
    st.frameOf .joinPresent place = some (description true true) ∧
    (∀ tag o, st.orders.find? (fun o => o.tag = tag) = some o →
      st.frameOf (.order tag) place = some (.order tag o.mover o.kind)) ∧
    (∀ l, st.sendList.find? (fun l => l.due.place = place) = some l → st.frameOf .loose place = some l.content)) ∧
  ∀ (rivals : List Byte) (s : State),
    let st := s.station
    let eligible := st.allSends.filter st.eligible
    let first := fun (x : Send) (p : Send → Prop) => ∀ y ∈ eligible, p y → y ≠ x → x.due.place < y.due.place
    (st.running = false ∨ st.attempt.isSome = true → exec (.transmitStart rivals) s = .next s) ∧
    (st.running = true → st.attempt = none →
      (eligible = [] → exec (.transmitStart rivals) s = .next (s.commit st)) ∧
      (∀ x ∈ eligible,
        ((x.due.pass = 8 ∧ first x fun y => y.due.pass = 8) ∨
          ((∀ y ∈ eligible, y.due.pass ≠ 8 ∧ x.priority ≤ y.priority) ∧ first x fun y => y.priority = x.priority)) →
        st.own ≤ 62 →
        ((∃ r ∈ rivals, r.toNat < x.priority * 64 + st.own) →
          exec (.transmitStart rivals) s = .next (s.commit st)) ∧
        (∀ f : Frame, (∀ r ∈ rivals, x.priority * 64 + st.own ≤ r.toNat) → st.frameOf x.ref x.due.place = some f →
          exec (.transmitStart rivals) s = .next (s.commit
            { (st.mapDues fun y =>
                { y with pass := if y.place = x.due.place then 0
                           else if eligible.any (fun z => z.due.place = y.place) then min (y.pass + 1) 8
                           else y.pass }) with
              attempt := some { ref := x.ref, place := x.due.place, tries := x.due.tries, priority := x.priority,
                                destination := x.destination, content := f, raisedAgain := false } }))))

/-- R96 and the table of R98 for what is not a delivery failure, R104 for the mark, R126 for an ORDER, which its origin
applies as its own command would be (R127; `MoveJoinsTheQueue`, `AbortEndsTheMoves` and `ClearReturnsToIdle` say what that
is). An entry of the Send List that frees has a stalled head tested again (R109; `HeadIsDiscardedForeignOrStalled`). -/
def Obligations.AttemptEndGoesToItsRecord : Prop :=
  ∀ (slot : SlotReading) (s : State) (a : Attempt), s.station.running = true → s.station.attempt = some a →
    s.station.outbox = [] →
    let st := s.station
    let freeing := fun x : Station => if ∃ l ∈ st.sendList, l.due.place = a.place then x.retestHead else x
    let base : Station :=
      { st with
        attempt := none
        linkCounters := if slot = .disturbed then
            { st.linkCounters with disturbedAttempts := min (st.linkCounters.disturbedAttempts + 1) 65535 }
          else st.linkCounters }
    let becomes := fun st' : Station => exec (.attemptEnd slot) s = .next (s.commit st')
    let retried := fun t : Nat =>
      becomes (base.mapDues fun y => if y.place = a.place then { y with tries := t } else y)
    let acked := a.destination ≠ 63 ∧ a.content.isTrack = false
    (slot ≠ .dominant → acked → a.tries < 3 → retried (a.tries + 1)) ∧
    (¬acked ∨ slot = .dominant →
      (st.markStands a.place = false → becomes base) ∧
      (st.markStands a.place = true → a.raisedAgain = true → retried 0) ∧
      (st.markStands a.place = true → a.raisedAgain = false →
        (∀ m, a.ref = .track m → becomes (base.modifyEntry m fun e => { e with trackDue := none })) ∧
        (a.ref = .notice → becomes { base with noticeDue := none }) ∧
        (a.ref = .joinPresent → becomes { base with joinPresentDue := none }) ∧
        (∀ m, a.ref = .cancel m → becomes (base.modifyEntry m fun e => { e with cancelDue := none })) ∧
        (∀ m, a.ref = .taken m → becomes (base.modifyEntry m fun e => { e with takenDue := none })) ∧
        (∀ k, a.ref = .grant k → becomes (base.modifyZone k fun z => { z with grantOwed := none })) ∧
        (∀ k m, a.ref = .queued k m → becomes (base.modifyZone k fun z =>
          { z with waiting := z.waiting.map fun c => if c.mover = m then { c with queuedOwed := none } else c })) ∧
        (∀ d, a.ref = .present d → becomes (base.setSide d { st.side d with presentDue := none })) ∧
        (a.ref = .loose →
          becomes (freeing { base with sendList := st.sendList.filter fun l => l.due.place ≠ a.place })) ∧
        (acked → (∀ m, a.ref = .claim m → becomes (base.modifyEntry m fun e =>
            { e with claimDue := none,
                     claim := e.claim.map fun c => { c with phase := .sent, sends := c.sends + 1, periods := 0 } })) ∧
          (∀ m, a.ref = .handover m → becomes (base.modifyEntry m fun e =>
            { e with handover := e.handover.map fun h =>
                { h with phase := .awaiting, attempts := h.attempts + 1, waiting := 0 } })) ∧
          (∀ (m mover : MoverId) (d : Side) (g n : Nat), a.ref = .release m d → a.content = .release mover g n →
            becomes (base.modifyEntry m fun e =>
              let left := (e.releaseZones d).filter fun z => z < g ∨ g + n ≤ z
              e.setReleaseDue d ((e.releaseDue d).bind fun r =>
                if left = [] then none else some { zones := left, due := { r.due with tries := 0 } })))) ∧
        (∀ (t : Nat) (o : PendingOrder), a.ref = .order t → ¬acked → st.orders.find? (fun o => o.tag = t) = some o →
          let sent : Station := { base with orders := st.orders.map fun o => if o.tag = t then { o with due := none } else o }
          ((∀ e, st.entry? o.mover = some e → e.state = .stray ∨ e.state = .visitor) → becomes sent) ∧
          (∀ e, st.entry? o.mover = some e → e.state = .handing → becomes
            { sent with orders := sent.orders.map fun o => if o.tag = t then { o with retrySeen := some st.own } else o }) ∧
          (∀ e, st.entry? o.mover = some e → e.state = .resident →
            ∃ (st' : Station) (rs : List ReportBody), becomes st' ∧
              st'.orders = st.orders.filter (fun o => o.tag ≠ t) ∧
              st'.outbox = rs ++ [.orderResult o.mover (some st.own) t (orderResultOf (st.orderRefusal e o.kind))] ∧
              (∀ r, st.orderRefusal e o.kind = some r → rs = [] ∧ st'.entries = st.entries) ∧
              (∀ r, o.kind = .move r → st.orderRefusal e o.kind = none → rs = [] ∧
                st'.entries = (st.modifyEntry o.mover fun e => { e with queue := e.queue ++ [r] }).entries)) ∧
          (∀ e, st.entry? o.mover = some e → e.state = .resident → st.orderRefusal e o.kind = none →
            ∃ applied : Station,
              becomes { applied with
                orders := st.orders.filter fun o => o.tag ≠ t
                outbox := applied.outbox ++ [.orderResult o.mover (some st.own) t .accepted] } ∧
              applied = sent.applyKind o.mover o.kind ∧
              ∀ command : Instr, (o.kind = .abort ∧ command = .abort 0 o.mover) ∨
                  (o.kind = .clear ∧ command = .clear 0 o.mover) ∨
                  (∃ r, o.kind = .move r ∧ r.ok = true ∧ command = .move 0 o.mover
                    { tag := r.tag, target := r.target, speed := r.speed, accel := r.accel, dwell := r.dwell.getD 0,
                      flags := (if r.dwell.isSome then 2 else 0) + if r.report then 1 else 0 }) →
                st.mode = .online → 1 ≤ o.mover → o.mover ≤ 4095 →
                ∃ data : ReplyData, exec command { s with station := sent } =
                  .next { s.commit applied with port := s.replied 0 .ok data }))))

/-- R96 with the failure column of R98; an entry of the Send List that frees has a stalled head tested again (R109). -/
def Obligations.DeliveryFailureClosesTheSide : Prop :=
  ∀ (slot : SlotReading) (s : State) (a : Attempt), s.station.running = true → s.station.attempt = some a →
    s.station.outbox = [] →
    a.destination ≠ 63 → a.content.isTrack = false → slot ≠ .dominant → 3 ≤ a.tries →
    let st := s.station
    let counters := { st.linkCounters with
      deliveryFailures := min (st.linkCounters.deliveryFailures + 1) 65535
      disturbedAttempts := if slot = .disturbed then min (st.linkCounters.disturbedAttempts + 1) 65535
        else st.linkCounters.disturbedAttempts }
    let bare : Station := { st with attempt := none, linkCounters := counters }
    let closed := fun x : Station => match st.sideOfAddress a.destination with
      | none => x
      | some d =>
        if (st.side d).state = .edge ∨ (st.side d).state = .closed .lost then x
        else ({ x with outbox := [.sideClosed a.destination .lost] } : Station).setSide d
          { st.side d with state := .closed .lost, probeCount := 0 }
    let becomes := fun st' : Station => exec (.attemptEnd slot) s = .next (s.commit st')
    let freeing := fun x : Station => if ∃ l ∈ st.sendList, l.due.place = a.place then x.retestHead else x
    let staysDue :=
      becomes ((closed bare).mapDues fun y => if y.place = a.place then { y with tries := 0 } else y)
    (st.markStands a.place = false → becomes (closed bare)) ∧
    (st.markStands a.place = true → a.raisedAgain = true → staysDue) ∧
    (st.markStands a.place = true → a.raisedAgain = false →
      ((∀ m, a.ref ≠ .claim m ∧ a.ref ≠ .handover m) → (∀ d, a.ref ≠ .present d) →
        ((∀ t m r, a.ref = .loose → a.content ≠ .orderReply t m r) ∨ (st.sideOfAddress a.destination).isSome) →
        staysDue) ∧
      (∀ (m x : MoverId) (g : ZoneNo) (flag : Bool) (e : Entry), a.ref = .claim m → a.content = .claim x g flag →
        st.entry? m = some e → e.cancelDue = none →
        becomes
          (let denied := (closed bare).modifyEntry m fun e =>
             { e with claim := none, claimDue := none, denied := some (g, .closed) }
           if e.claim.any (fun c => 1 ≤ c.sends) then
             { (denied.modifyEntry m fun e => { e with cancelDue := some (g, st.freshDue) }) with
               nextPlace := st.nextPlace + 1 }
           else denied)) ∧
      (∀ d, a.ref = .present d → becomes
        ((closed bare).setSide d { (closed bare).side d with presentDue := none })) ∧
      (∀ t m r, a.ref = .loose → a.content = .orderReply t m r → st.sideOfAddress a.destination = none → becomes
        (freeing { bare with
          sendList := st.sendList.filter (fun l => l.due.place ≠ a.place)
          linkCounters := { counters with droppedReplies := min (counters.droppedReplies + 1) 65535 } })) ∧
      (∀ (m : MoverId) (e : Entry) (h : Handover), a.ref = .handover m → st.entry? m = some e →
        e.handover = some h → ∃ (st' : Station) (e' : Entry), becomes st' ∧ st'.kept = bare.kept ∧
          st'.entry? m = some e' ∧ e'.state = .resident ∧ e'.handover = none ∧ e'.setpoint = e.setpoint ∧
          (∀ d, e'.remoteToward d = (e.remoteToward d).filter fun g => (bodyZones e.setpoint).contains g) ∧
          (st.Tabled → st.ClaimGivenUp st' h.travelled e e' ∧ st.ReleasedOffBody st' e.setpoint e e') ∧
          (∀ cause, e.motion = .faulted cause → e'.motion = .faulted cause ∧ st'.outbox = (closed bare).outbox) ∧
          (e.motion.isFaulted = false → e'.motion = .faulted .handoverLost ∧ e'.lostTarget = some h.target ∧
            e'.active = none ∧ e'.queue = [] ∧
            st'.outbox = (closed bare).outbox ++
              [.moverFault m .handoverLost (e.active.toList.length + e.queue.length) none])))

/-- R111 and R113, with R175 for an abandoned operation (log entry 8) and R162 for the first transaction after a pin reset.
`Station.atReset` and `Reports.atReset` hold the values of `ResetLeavesTheResetValues`, and those the model names: trip
levels that stay (log entry 7), EDGE sides (28), the clocks off (29), the age timer's count (36); the port's bytes shifted
out and the acknowledge slot are those of log entry 35. -/
def Obligations.PinResetAndRestartBeginLoading : Prop :=
  ∀ (s : State),
    (∃ store : Store,
      exec .pinReset s = .next
        { station := Station.atReset s.station.overCurrent s.station.supplyLow, reports := Reports.atReset,
          port := { response := none, shifted := [] }, store := store, free := s.free + 1, pending := s.pending } ∧
      store.mark0 = s.store.mark0 ∧ store.mark1 = s.store.mark1 ∧ store.busy = none ∧ store.offset = 0 ∧
      (∀ x : Nat, store.buffer.read x = 0xFF) ∧
      (∀ t u : State, exec .pinReset s = .next t → exec .nullMessage t = .next u →
        u.port.shiftedByte 0 = 0 ∧ ∀ i, 1 ≤ i → u.port.shiftedByte i = 0xFF) ∧
      (s.store.busy = none → store.page0 = s.store.page0 ∧ store.page1 = s.store.page1) ∧
      (∀ (op : StoreOp) (p : Nat), s.store.busy = some (op, p) →
        (if p = 0 then store.page1 = s.store.page1 else store.page0 = s.store.page0) ∧
        ∀ x < 64,
          let old := (if p = 0 then s.store.page0 else s.store.page1).read x
          let now := (if p = 0 then store.page0 else store.page1).read x
          now = old ∨ now = match op with
            | .erase => 0xFF
            | .commit => old &&& s.store.buffer.read x)) ∧
    (∀ seq : Nat, s.station.mode ≠ .loading →
      (s.store.busy.isSome = true → exec (.restart seq) s = .next { s with port := s.replied seq .busy .empty }) ∧
      (s.store.busy = none → exec (.restart seq) s = .next
        { s with station := Station.atReset s.station.overCurrent s.station.supplyLow,
                 store := { s.store with buffer := [], offset := 0 }, port := s.replied seq .ok .empty }))

/-- R111 and what it applies: R112, R173 and R183 for a valid page 0. Elsewhere LOADING_END does not come about (log entry 4);
with page 0 invalid, page 1 is not reported (26); the values that the model names are those of log entries 9 and 28. -/
def Obligations.LoadingEndAppliesTheRecord : Prop :=
  ∀ (s : State),
    let st := s.station
    (let b := fun i : Nat => (s.store.page0.read i).toNat
     let origin := b 3 * 65536 + b 4 * 256 + b 5
     let neighbour := fun n : Nat => if n = 63 then none else some n
     let valid := s.store.mark0 = false ∧ pageCheckOk s.store.page0.read = true ∧ b 0 ≤ 62 ∧ b 1 ≤ 63 ∧ b 2 ≤ 63 ∧
       origin % 3000 = 0 ∧ 8 ≤ b 6 ∧ b 6 ≤ 16 ∧ b 7 ≤ 2 ∧ b 8 ≤ 1 ∧ 200 ≤ b 9 * 256 + b 10 ∧ b 9 * 256 + b 10 ≤ 2000 ∧
       1 ≤ b 13 ∧ 4 ≤ b 14 ∧ b 14 ≤ 40 ∧ 600 ≤ b 15 * 256 + b 16 ∧ b 15 * 256 + b 16 ≤ 4000 ∧ b 18 ≤ 15 ∧
       b 1 ≠ b 0 ∧ b 2 ≠ b 0 ∧ (b 1 = b 2 → b 1 = 63) ∧ origin / 3000 + b 6 ≤ 5592
     (valid → s.store.record? = some
       { address := b 0, lower := neighbour (b 1), upper := neighbour (b 2), origin := origin, coils := b 6,
         periodCode := b 7, rateCode := b 8, followLimit := b 9 * 256 + b 10, zoneWaitLimit := b 11 * 256 + b 12,
         gain := b 13, stopAccel := b 14, pwmTop := b 15 * 256 + b 16, deadtime := b 17,
         idle := { ah := (b 18).testBit 3, al := (b 18).testBit 2, bh := (b 18).testBit 1, bl := (b 18).testBit 0 } }) ∧
     (¬valid → s.store.record? = none)) ∧
    (st.mode ≠ .loading → exec .loadingEnd s = .next s) ∧
    (st.mode = .loading → st.outbox = [] →
      (∀ r : Record, s.store.record? = some r →
        s.store.mark0 = false ∧ pageCheckOk s.store.page0.read = true ∧ r.address ≤ 62 ∧ r.origin % 3000 = 0 ∧
        8 ≤ r.coils ∧ r.coils ≤ 16 ∧ r.origin / 3000 + r.coils ≤ 5592 ∧ r.periodCode ≤ 2 ∧ r.rateCode ≤ 1 ∧
        200 ≤ r.followLimit ∧ r.followLimit ≤ 2000 ∧ r.zoneWaitLimit ≤ 65535 ∧ 1 ≤ r.gain ∧ r.gain ≤ 255 ∧
        4 ≤ r.stopAccel ∧ r.stopAccel ≤ 40 ∧ 600 ≤ r.pwmTop ∧ r.pwmTop ≤ 4000 ∧ r.deadtime ≤ 255 ∧
        (∀ n, r.lower = some n ∨ r.upper = some n → n ≤ 62 ∧ n ≠ r.address) ∧
        (∀ a b, r.lower = some a → r.upper = some b → a ≠ b)) ∧
      (s.store.record? = none → exec .loadingEnd s = .next
        { s.commit { st with mode := .unconfigured, outbox := [.storeInvalid 0] } with free := s.free + 1 }) ∧
      (∀ r : Record, s.store.record? = some r →
        let blocks := s.store.mark1 = false ∧ pageCheckOk s.store.page1.read = true
        let side := fun n : Option Address =>
          ({ neighbour := n, state := if n.isSome then .unheard else .edge, openedSinceLoading := false, span := none,
             drive := none, trippedMark := false, probeCount := 0, presentDue := none } : SideRecord)
        let active := fun c : TripCause => match c with
          | .coil k => k < r.coils ∧ st.overCurrent.getLsbD k = true
          | .supply => st.supplyLow = true
        ∃ (zones : List Zone) (latch : Option TripCause),
          exec .loadingEnd s = .next
            { s.commit { st with
                mode := .joining, record := some r, zones := zones, latch := latch, lowerSide := side r.lower,
                upperSide := side r.upper, pwm := { running := true, count := 0, up := true }, joinCount := 0,
                joinPresentDue := some st.freshDue, nextPlace := st.nextPlace + 1,
                outbox := if blocks then [] else [.storeInvalid 1] } with
              free := s.free + 1 } ∧
          zones.length = r.coils ∧
          (∀ k < r.coils, zones[k]? = some
            { state := if blocks ∧ (s.store.page1.read (k / 8)).getLsbD (k % 8) = false then .blocked else .free,
              grantOwed := none, waiting := [] }) ∧
          (∀ c, latch = some c → active c) ∧ (latch = none → ∀ c, ¬active c)))

/-- R115 and R117: `joinTick` and `probeTick` are the countings of an expiry (`ControlPeriodExpiryDoesItsWorkInOrder`), and
each row the counting that reaches the end (log entry 3). At the end of the window the lower side is closed and reported
first (log entry 41). An attempt of the PRESENT already due is raised again when the probe changes its content (log entry
25). -/
def Obligations.JoinAndProbeCountsEnd : Prop :=
  ∀ (s : State),
    let st := s.station
    let lost := fun r : SideRecord => if r.state = .unheard then { r with state := .closed .lost, probeCount := 0 } else r
    let told := fun (r : SideRecord) => if r.state = .unheard then [ReportBody.sideClosed (r.neighbour.getD 63) .lost] else []
    let online : Station :=
      { st with mode := .online, joinCount := st.joinCount + 1, lowerSide := lost st.lowerSide,
                upperSide := lost st.upperSide,
                outbox := st.outbox ++ told st.lowerSide ++ told st.upperSide ++ [.joined] }
    let probe := fun d : Side => Frame.present
      { origin := st.conf.origin, coils := st.conf.coils, lower := st.conf.lower, upper := st.conf.upper,
        fresh := !(st.side d).openedSinceLoading, answerWanted := true, drive := st.drive }
    (st.mode ≠ .joining → st.joinTick = st) ∧
    (st.mode = .joining → st.joinCount < 99 → (st.lowerSide.state ≠ .edge ∨ st.upperSide.state ≠ .edge) →
      st.joinTick = { st with joinCount := st.joinCount + 1 }) ∧
    (st.mode = .joining → st.joinCount = 99 → st.joinTick = online ∧ exec .joinCountExpiry s = .next (s.commit online)) ∧
    (st.mode = .joining → st.lowerSide.state = .edge → st.upperSide.state = .edge → st.joinTick = online) ∧
    (∀ d : Side,
      ((st.side d).state ≠ .closed .lost → st.probeTick d = st) ∧
      ((st.side d).state = .closed .lost → (st.side d).probeCount < 199 →
        st.probeTick d = st.setSide d { st.side d with probeCount := (st.side d).probeCount + 1 }) ∧
      ((st.side d).state = .closed .lost → (st.side d).probeCount = 199 → ∃ probed : Station,
        st.probeTick d = probed ∧ (st.running = true → exec (.probeCountExpiry d) s = .next (s.commit probed)) ∧
        ((st.side d).presentDue = none → probed =
          { (st.setSide d { st.side d with probeCount := 0, presentDue := some (true, st.freshDue) }) with
            nextPlace := st.nextPlace + 1 }) ∧
        (∀ (w : Bool) (due : Due), (st.side d).presentDue = some (w, due) → probed =
          { (st.setSide d { st.side d with probeCount := 0, presentDue := some (true, due) }) with
            attempt := st.attempt.map fun a =>
              if a.place = due.place ∧ a.content ≠ probe d then { a with raisedAgain := true } else a })))

/-- R120. -/
def Obligations.NoticeSetsTheNeighbourDrive : Prop :=
  ∀ (s : State) (f : RxFrame) (rest : List RxFrame) (ds : DriveState), s.station.Ready f rest (.notice ds) →
    s.station.outbox = [] → s.station.Tabled →
    let st := s.station
    let n := f.source
    let popped : Station := { st with rxQueue := rest }
    let becomes := fun st' : Station => exec .noticeFrame s = .next (s.commit st')
    (st.sideOfAddress n = none → becomes popped) ∧
    (∀ d : Side, st.sideOfAddress n = some d →
      let side := st.side d
      (∀ cause : TripCause, ds = .tripped cause → side.trippedMark = true →
        becomes (popped.setSide d { side with drive := some ds })) ∧
      (∀ cause : TripCause, ds = .tripped cause → side.trippedMark = false →
        let struck := fun e : Entry => (e.state = .resident ∨ e.state = .handing) ∧ e.motion.isFaulted = false ∧
          ((d = .lower ∧ e.setpoint < st.conf.origin + 2000) ∨ (d = .upper ∧ st.segmentEnd ≤ e.setpoint + 1999))
        ∃ st' : Station, becomes st' ∧ st'.kept = popped.kept ∧
          st'.side d = { side with drive := some ds, trippedMark := true } ∧
          st'.outbox = .neighbourTrip n cause :: (st.entries.filter fun e => decide (struck e)).map (fun e =>
            .moverFault e.id .neighbourTrip (e.active.toList.length + e.queue.length) none) ∧
          ∀ e ∈ st.entries, e.state = .resident ∨ e.state = .handing →
            ∃ e' : Entry, st'.entry? e.id = some e' ∧ e'.state = e.state ∧ e'.setpoint = e.setpoint ∧
              (struck e → e'.motion = .faulted .neighbourTrip ∧ e'.active = none ∧ e'.queue = [] ∧ e'.velocity = 0 ∧
                (e.state = .resident → e'.claim = none ∧ (st.ClaimInPlace e → st.ClaimGivenUp st' e.claim e e') ∧
                  (e.active.isSome = true → st.ReleasedOffBody st' e.setpoint e e'))) ∧
              (¬struck e → e'.motion = e.motion ∧ e'.active = e.active ∧ e'.queue = e.queue)) ∧
      (ds = .off ∨ ds = .on →
        (side.trippedMark = true →
          becomes { (popped.setSide d { side with drive := some ds, trippedMark := false }) with
            outbox := [.neighbourResume n] }) ∧
        (side.trippedMark = false → becomes (popped.setSide d { side with drive := some ds }))))

/-- R116 in its steps, the purge of R118 before them; the probe count stays when the side opens (log entry 37). The purge's
orders and freeings are those of log entries 20, 41, 47 and 55: `ReleaseAndCancelFreeTheirZones` states `examine` and
`offerEntry`, and `endHandover` is the loss of a handover in `AnswerTimeoutsSendAgainOrEnd`. -/
def Obligations.PresentOpensOrClosesTheSide : Prop :=
  ∀ (s : State) (f : RxFrame) (rest : List RxFrame) (p : Present), s.station.Ready f rest (.present p) →
    s.station.outbox = [] →
    let st := s.station
    let n := f.source
    let popped : Station := { st with rxQueue := rest }
    (st.sideOfAddress n = none → exec .presentFrame s = .next (s.commit popped)) ∧
    (∀ d : Side, st.sideOfAddress n = some d → (st.side d).state ≠ .edge →
      let fits := (d = .upper ∧ p.origin = st.conf.origin + 3000 * st.conf.coils ∧ p.lower = some st.own) ∨
        (d = .lower ∧ p.origin + 3000 * p.coils = st.conf.origin ∧ p.upper = some st.own)
      let x := if p.fresh = true ∧ (st.side d).state ≠ .unheard then popped.purge n d else popped
      let side := x.side d
      let judged : Station :=
        if fits then
          { (x.setSide d { side with
              span := some (p.origin, p.coils), state := .opened
              openedSinceLoading := side.openedSinceLoading || decide (side.state ≠ .opened) }) with
            outbox := x.outbox ++ if side.state = .opened then [] else [.sideOpen n] }
        else
          { (x.setSide d { side with state := .closed .mismatch, probeCount := 0 }) with
            outbox := x.outbox ++ if side.state = .closed .mismatch then [] else [.sideClosed n .mismatch] }
      let driven := judged.neighbourDrive d p.drive
      let answered := if p.answerWanted = true ∧ fits then driven.owePresent d false else driven
      let settled := (answered.lowerSide.state = .edge ∨ answered.lowerSide.state = .opened) ∧
        (answered.upperSide.state = .edge ∨ answered.upperSide.state = .opened)
      exec .presentFrame s = .next (s.commit
        (if st.mode = .joining ∧ settled then { answered with mode := .online, outbox := answered.outbox ++ [.joined] }
         else answered)) ∧
      (st.Tabled → st.own ≠ n →
        let y := popped.purge n d
        (let x : Station := { popped with outbox := [.neighbourRestart n] }
         let heldForN := fun z : Zone => z.state.heldFor n
         let cleared : Station :=
           { x with
             zones := x.zones.map fun z =>
               { state := if heldForN z then .free else z.state, grantOwed := if heldForN z then none else z.grantOwed
                 waiting := z.waiting.filter fun c => c.station ≠ n }
             coils := x.coils.mapIdx fun k c =>
               if (x.zones[k]?).any heldForN then
                 { c with assigned := none, preloaded := .unassigned, applied := .unassigned }
               else c }
         let left : Station :=
           { cleared with
             entries := cleared.entries.filter fun e =>
               decide (e.state ≠ .visitor ∨ e.owner = some n ∨ cleared.holdings e.id ≠ [] ∨ cleared.claimedZones e.id ≠ []) }
         let zones := (left.examine ((List.range x.zones.length).filter fun k => (x.zones[k]?).any fun z =>
           heldForN z || decide (z.state = .free ∧ ∃ c, z.waiting.head? = some c ∧ c.station = n))).offerEntry
         let visitors := (zones.entries.map Entry.id).foldl (fun (x : Station) m =>
           match x.entry? m with
           | none => x
           | some e =>
             if e.state = .visitor ∧ e.owner = some n then
               (if e.actual.isSome then x.modifyEntry m fun _ => { Entry.blank m .stray with actual := e.actual }
                else ({ x with entries := x.entries.filter fun e => e.id ≠ m } : Station).offerEntry).recompute m
             else x) zones
         let handed := (visitors.entries.map Entry.id).foldl (fun (x : Station) m =>
           if ∃ e, x.entry? m = some e ∧ e.state = .handing ∧ ∃ h, e.handover = some h ∧ h.target = n then
             x.endHandover m .handoverLost none
           else x) visitors
         y.zones = handed.zones ∧ y.coils = handed.coils ∧ y.outbox = handed.outbox ∧
           y.sendList = (handed.sendList.filter fun l => l.destination ≠ n) ∧
           y.entries.map (fun e => (e.id, e.state, e.motion, e.setpoint)) =
             handed.entries.map (fun e => (e.id, e.state, e.motion, e.setpoint))) ∧
        (∃ rs : List ReportBody, y.outbox = .neighbourRestart n :: rs) ∧ y.kept.record = st.record ∧
        (∀ l ∈ y.sendList, l.destination ≠ n) ∧ (y.side d).presentDue = none ∧
        (∀ e ∈ y.entries, e.state = .resident ∨ e.state = .handing →
          e.releaseDue d = none ∧ e.previousOwner ≠ some n ∧ e.lostTarget ≠ some n ∧
          (∀ g ∈ e.remote, st.sideOfZone g ≠ d) ∧ (∀ t, e.takenDue = some t → t.1 ≠ n)) ∧
        ((∀ z ∈ st.zones, z.waiting = []) → (∀ e ∈ st.entries, e.state ≠ .handing) →
          (∀ e ∈ y.entries, ¬(e.state = .visitor ∧ e.owner = some n)) ∧
          ∀ (k : Nat) (z : Zone), st.zones[k]? = some z → y.zones[k]? = some
            (match z.state with
              | .held _ h => if h = n then { state := .free, grantOwed := none, waiting := [] } else z
              | .free | .blocked => z))))

/-- R121 with R35. -/
def Obligations.MaintenanceEmptiesTheTables : Prop :=
  ∀ (seq : Nat) (s : State), s.station.mode = .online → s.station.outbox = [] →
    let st := s.station
    let active := ∃ e ∈ st.entries, e.state ≠ .stray
    (s.store.busy.isSome = true → exec (.maintenance seq) s = .next { s with port := s.replied seq .busy .empty }) ∧
    (s.store.busy = none →
      (active → exec (.maintenance seq) s = .next { s with port := s.replied seq .refused (.reason .moversActive) }) ∧
      (¬active → st.drive = .on →
        exec (.maintenance seq) s = .next { s with port := s.replied seq .refused (.reason .driveOn) }) ∧
      (¬active → st.drive ≠ .on →
        let remote := (List.range st.zones.length).flatMap fun k =>
          (((st.zones[k]?.map Zone.waiting).getD []).filter fun c => c.station ≠ st.own).map fun c =>
            (c.station, Frame.denied c.mover (st.firstZone + k) .state)
        ∃ st' : Station,
          exec (.maintenance seq) s = .next
            { s.commit st' with port := s.replied seq .ok (.number st.entries.length) } ∧
          st'.kept = ({ st with mode := .maintenance } : Station).kept ∧ st'.entries = [] ∧ st'.outbox = [] ∧
          (∀ (k : Nat) (z : Zone), st.zones[k]? = some z → st'.zones[k]? = some
            (match z.state with
              | .held .. => { state := .free, grantOwed := none, waiting := [] }
              | .free | .blocked => { z with waiting := [] })) ∧
          st'.sendList.map (fun l => (l.destination, l.content)) =
            st.sendList.map (fun l => (l.destination, l.content)) ++ remote.take (8 - st.sendList.length)))

/-- R124 for who forms an order, R125 for how, R131 for its end: `orderTick` is the counting of an expiry
(`ControlPeriodExpiryDoesItsWorkInOrder`), in table order (log entry 37), and ORDER_TIMEOUT the counting that reaches the
end (log entry 3). -/
def Obligations.OrdersAreFormedAndTimeOut : Prop :=
  (∀ (st : Station), st.orderTick =
    { st with
      orders := st.orders.filterMap fun o =>
        if o.due ≠ none then some o else if 19 ≤ o.waiting then none else some { o with waiting := o.waiting + 1 }
      outbox := st.outbox ++ (st.orders.filter fun o => o.due = none ∧ 19 ≤ o.waiting).map fun o =>
        match o.retrySeen with
        | some n => .orderResult o.mover (some n) o.tag .inTransit
        | none => .orderResult o.mover none o.tag .notFound }) ∧
  ∀ (s : State), s.station.outbox = [] →
    let st := s.station
    (∀ (seq m : Nat) (c : Instr) (kind : OrderKind), st.mode = .online → 1 ≤ m → m ≤ 4095 →
      (∀ e, st.entry? m = some e → e.state = .visitor) →
      ((c = .abort seq m ∧ kind = .abort) ∨ (c = .clear seq m ∧ kind = .clear) ∨
        ∃ p : MoveParams, moveFieldsOk p = true ∧ c = .move seq m p ∧ kind = .move
          { tag := p.tag, target := p.target, speed := p.speed, accel := p.accel,
            dwell := if p.flags.testBit 1 then some p.dwell else none, report := p.flags.testBit 0 }) →
      (4 ≤ st.orders.length → exec c s = .next { s with port := s.replied seq .busy .empty }) ∧
      (st.orders.length < 4 → ∃ i ≤ 3,
        let tag := (st.nextTag + i) % 256
        (∀ o ∈ st.orders, o.tag ≠ tag) ∧ (∀ j < i, ∃ o ∈ st.orders, o.tag = (st.nextTag + j) % 256) ∧
        exec c s = .next
          { s.commit { st with
              orders := st.orders ++
                [{ tag := tag, mover := m, kind := kind, due := some st.freshDue, waiting := 0, retrySeen := none }]
              nextTag := (tag + 1) % 256, nextPlace := st.nextPlace + 1 } with
            port := s.replied seq .accepted (.number tag) })) ∧
    (∀ (tag : Nat) (o : PendingOrder), st.running = true → st.orders.find? (fun o => o.tag = tag) = some o →
      o.due = none → 19 ≤ o.waiting →
      exec (.orderTimeout tag) s = .next (s.commit
        { st with
          orders := st.orders.filter fun o => o.tag ≠ tag
          outbox := [match o.retrySeen with
            | some n => .orderResult o.mover (some n) o.tag .inTransit
            | none => .orderResult o.mover none o.tag .notFound] }))

/-- R127 by what the command itself does here, with the results of R128 placed first (R129); R130 at the origin. -/
def Obligations.OrderIsAppliedAsTheCommand : Prop :=
  ∀ (s : State) (f : RxFrame) (rest : List RxFrame) (tag : Nat) (m : MoverId), s.station.outbox = [] →
    let st := s.station
    let popped : Station := { st with rxQueue := rest }
    (∀ kind : OrderKind, st.Ready f rest (.order tag m kind) →
      let becomes := fun st' : Station => exec .orderFrame s = .next (s.commit st')
      let replying := fun r : OrderResult => st.replying rest f.source (.orderReply tag m r)
      let command : Instr := match kind with
        | .abort => .abort 0 m
        | .clear => .clear 0 m
        | .move r => .move 0 m
            { tag := r.tag, target := r.target, speed := r.speed, accel := r.accel, dwell := r.dwell.getD 0,
              flags := (if r.dwell.isSome then 2 else 0) + if r.report then 1 else 0 }
      (st.mode ≠ .online → becomes popped) ∧
      (st.mode = .online →
        ((∀ e, st.entry? m = some e → e.state = .stray ∨ e.state = .visitor) → becomes popped) ∧
        (∀ e, st.entry? m = some e → e.state = .handing → becomes (replying .retry)) ∧
        (∀ e, st.entry? m = some e → e.state = .resident →
          ∃ (t : State) (answer : Response), exec command { s with station := replying .accepted } = .next t ∧
            t.port.response = some answer ∧
            (answer.result = .ok → exec .orderFrame s = .next { t with port := s.port }) ∧
            (answer.result ≠ .ok → ∃ r : RefuseReason, answer.result = .refused ∧ answer.data = .reason r ∧
              (r = .queueFull → becomes (replying .queueFull)) ∧ (r = .faulted → becomes (replying .faulted)) ∧
              (r = .stopping → becomes (replying .stopping)) ∧ (r = .badState → becomes (replying .badState)) ∧
              (r = .drift → becomes (replying .drift)) ∧
              (r = .queueFull ∨ r = .faulted ∨ r = .stopping ∨ r = .badState ∨ r = .drift))))) ∧
    (∀ r : OrderResult, st.Ready f rest (.orderReply tag m r) →
      let becomes := fun st' : Station => exec .orderReplyFrame s = .next (s.commit st')
      (st.orders.find? (fun o => o.tag = tag) = none → becomes popped) ∧
      (∀ o : PendingOrder, st.orders.find? (fun o => o.tag = tag) = some o →
        (o.due.isSome = true ∨ o.mover ≠ m → becomes popped) ∧
        (o.due = none → o.mover = m → r = .retry → becomes
          { popped with orders := st.orders.map fun o =>
              if o.tag = tag then { o with retrySeen := some f.source } else o }) ∧
        (o.due = none → o.mover = m → r ≠ .retry → becomes
          { popped with
            orders := st.orders.filter fun o => o.tag ≠ tag
            outbox := [.orderResult m (some f.source) tag r] })))

/-- R133. -/
def Obligations.WatchSetReplacesTheTable : Prop :=
  ∀ (seq mode : Nat) (ms : List Nat) (s : State), s.station.mode.started = true → mode ≤ 2 → ms.length ≤ 16 →
    (∀ m ∈ ms, 1 ≤ m ∧ m ≤ 4095) →
    ∃ kept : List Nat,
      exec (.watchSet seq mode ms) s = .next
        { s with
          station := { s.station with
            watchMode := if mode = 0 then .off else if mode = 1 then .list else .all, watchList := kept }
          port := s.replied seq .ok (.number kept.length) } ∧
      (∀ m : Nat, m ∈ kept ↔ m ∈ ms) ∧ kept.Pairwise fun a b => ms.idxOf a < ms.idxOf b

/-- R183 for the bytes of a scan; R136 to R143, where `CountsEndInFaults` states a loss count that reaches 4, and `loseTimes`
is that many loss countings one after another (R138). Whether a strobe spans a reset is an operand (log entry 48), and one
loss counting works its entries in ascending mover ID (log entry 41). -/
def Obligations.ScanIsCountedAndWorked : Prop :=
  (∀ bs : List Byte,
    let b := fun i : Nat => (bs.getD i 0).toNat
    let good := 2 ≤ bs.length ∧ b 1 ≤ 8 ∧ bs.length = 3 + 4 * b 1 ∧ bs.getLast? = some (crc8 bs.dropLast)
    (¬good → scanOfBytes bs = none) ∧
    (good → scanOfBytes bs = some
      { seq := b 0,
        sightings := (List.range (b 1)).map fun i =>
          (b (2 + 4 * i) * 256 + b (3 + 4 * i), b (4 + 4 * i) * 256 + b (5 + 4 * i)) })) ∧
  crc8 [] = 0 ∧
  (∀ (bs : List Byte) (b : Byte), crc8 (bs ++ [b]) = (List.range 8).foldl (fun (c : Byte) i =>
      (c <<< 1) ^^^ (if c.getLsbD 7 ^^ b.getLsbD (7 - i) then 0x07#8 else 0#8)) (crc8 bs)) ∧
  (∀ (st : Station) (n : Nat), st.loseTimes 0 = st ∧ st.loseTimes (n + 1) = (st.loseAll []).loseTimes n) ∧
  (∀ (bits : StrobedBits) (s : State),
      let st := s.station
      let read := scanOfBytes (gatherBytes bits.sampled)
      let error : SightingCounters :=
        { st.sightingCounters with scanErrors := min (st.sightingCounters.scanErrors + 1) 65535 }
      (st.mode ≠ .joining → st.mode ≠ .online → exec (.scan bits) s = .next s) ∧
      (bits.spansReset = true → exec (.scan bits) s = .next s) ∧
      (st.mode = .joining ∨ st.mode = .online → bits.spansReset = false →
        (read = none → exec (.scan bits) s = .next (s.commit
          { (({ st with sightingCounters := error } : Station).loseAll []) with
            expectedScan := st.expectedScan.map fun q => (q + 1) % 256 })) ∧
        (∀ (scan : Scan) (q : Nat), read = some scan → st.expectedScan = some q → (scan.seq + 256 - q) % 256 = 255 →
          exec (.scan bits) s = .next (s.commit { st with sightingCounters := error })) ∧
        (∀ (scan : Scan) (gap : Nat), read = some scan →
          (st.expectedScan = none ∧ gap = 0 ∨
            ∃ q, st.expectedScan = some q ∧ gap = (scan.seq + 256 - q) % 256 ∧ gap ≠ 255) →
          let counted : Station := { st with sightingCounters :=
            { st.sightingCounters with missedScans := min (st.sightingCounters.missedScans + gap) 65535 } }
          let sighted := (counted.loseTimes gap).readSightings [] scan.sightings
          exec (.scan bits) s = .next (s.commit
            { (sighted.1.loseAll sighted.2) with expectedScan := some ((scan.seq + 1) % 256) })))) ∧
    (∀ (st : Station) (tag loc : Nat) (seen : List MoverId) (more : List (Nat × Nat)),
      let p := st.conf.origin + loc
      let dropped := tag = 0 ∨ 4095 < tag ∨ 3000 * st.conf.coils ≤ loc ∨ tag ∈ seen
      let then' := fun (x : Station) (sighted : List MoverId) =>
        st.readSightings seen ((tag, loc) :: more) = x.readSightings sighted more
      (dropped → then' { st with sightingCounters :=
        { st.sightingCounters with droppedSightings := min (st.sightingCounters.droppedSightings + 1) 65535 } } seen) ∧
      (¬dropped →
        (st.entry? tag = none → st.entries.length < 12 → ∃ x : Station, then' x (tag :: seen) ∧
          x.entry? tag = some { Entry.blank tag .stray with actual := some p } ∧ x.kept = st.kept ∧
          (∀ m, m ≠ tag → x.entry? m = st.entry? m) ∧ x.outbox = st.outbox ++ [.straySeen tag (p / 3000)]) ∧
        (st.entry? tag = none → 12 ≤ st.entries.length → then' { st with sightingCounters :=
          { st.sightingCounters with
            untrackedSightings := min (st.sightingCounters.untrackedSightings + 1) 65535 } } (tag :: seen)) ∧
        (∀ e : Entry, st.entry? tag = some e →
          (e.state = .resident ∨ e.state = .stray ∨
              (e.state = .handing ∧ st.conf.origin ≤ e.setpoint ∧ e.setpoint < st.segmentEnd) →
            then' (st.modifyEntry tag fun x => { x with actual := some p, lossCount := 0 }) (tag :: seen)) ∧
          (e.state = .visitor ∨
              (e.state = .handing ∧ ¬(st.conf.origin ≤ e.setpoint ∧ e.setpoint < st.segmentEnd)) →
            then' st (tag :: seen))))) ∧
    (∀ (st : Station) (sighted : List MoverId), st.Tabled → (∀ e ∈ st.entries, e.lossCount < 3) →
      st.loseAll sighted = { st with entries := st.entries.map fun e =>
        if e.id ∉ sighted ∧ (e.state = .stray ∨ ((e.state = .resident ∨ e.state = .handing) ∧
            st.conf.origin ≤ e.setpoint ∧ e.setpoint < st.segmentEnd)) then
          { e with lossCount := e.lossCount + 1 }
        else e })

/-- R144 and R145; ADOPT makes no recompute of coils (log entry 38). -/
def Obligations.AdoptTakesTheStray : Prop :=
  ∀ (seq m : Nat) (s : State), s.station.mode = .online → 1 ≤ m → m ≤ 4095 → s.station.outbox = [] →
    s.station.zones.length = s.station.conf.coils →
    let st := s.station
    let refused := fun r : RefuseReason =>
      exec (.adopt seq m) s = .next { s with port := s.replied seq .refused (.reason r) }
    (st.entry? m = none → exec (.adopt seq m) s = .next { s with port := s.replied seq .notFound .empty }) ∧
    (∀ e : Entry, st.entry? m = some e →
      (e.state ≠ .stray → refused .notStray) ∧
      (∀ p : Position, e.state = .stray → e.actual = some p →
        let inside := st.conf.origin ≤ p ∧ p < st.segmentEnd
        let beyond := ∃ g ∈ bodyZones p, (g < st.firstZone ∧ st.lowerSide.state = .edge) ∨
          (st.firstZone + st.conf.coils ≤ g ∧ st.upperSide.state = .edge)
        let own := (bodyZones p).filter fun g => st.firstZone ≤ g ∧ g < st.firstZone + st.conf.coils
        let busy := ∃ (k : Nat) (z : Zone), st.firstZone + k ∈ own ∧ st.zones[k]? = some z ∧
          (z.state ≠ .free ∨ z.waiting ≠ [])
        (¬inside ∨ 16775999 < p + 1999 ∨ beyond → refused .outOfSegment) ∧
        (inside → p + 1999 ≤ 16775999 → ¬beyond →
          (busy → refused .zoneBusy) ∧
          (¬busy → ∃ zones : List Zone,
            exec (.adopt seq m) s = .next
              { s.commit { (st.modifyEntry m fun _ => { Entry.blank m .resident with
                             owner := some st.own, setpoint := p, actual := some p }) with zones := zones } with
                port := s.replied seq .ok (.number own.length) } ∧
            zones.length = st.zones.length ∧
            ∀ (k : Nat) (z : Zone), st.zones[k]? = some z → zones[k]? = some
              (if st.firstZone + k ∈ own then { z with state := .held m st.own, grantOwed := none } else z)))))

/-- R148 to R150, with R34 for the remote claims. -/
def Obligations.DriveOnAndOff : Prop :=
  ∀ (seq : Nat) (s : State), s.station.outbox = [] →
    let st := s.station
    let noticed := fun x : Station => match st.noticeDue with
      | none => { x with noticeDue := some st.freshDue, nextPlace := st.nextPlace + 1 }
      | some due => { x with attempt := st.attempt.map fun a =>
          if a.place = due.place then { a with raisedAgain := true } else a }
    (∀ r : Record, st.mode = .joining ∨ st.mode = .online → st.record = some r →
      let active := ((List.range r.coils).filter fun k => st.overCurrent.getLsbD k).map TripCause.coil ++
        if st.supplyLow then [TripCause.supply] else []
      let done := fun x : Station => exec (.driveOn seq) s = .next { s.commit x with port := s.replied seq .ok .empty }
      (∀ c, active.head? = some c →
        exec (.driveOn seq) s = .next { s with port := s.replied seq .refused (.tripActive c) }) ∧
      (active = [] → (st.drive = .on → done st) ∧
        (st.drive ≠ .on → done (noticed { st with drive := .on, latch := none })))) ∧
    (st.mode.started = true →
      let active := ∃ e ∈ st.entries, e.state = .visitor ∨ ((e.state = .resident ∨ e.state = .handing) ∧
        (e.motion = .moving ∨ e.motion = .dwell ∨ e.motion = .zoneWait ∨ e.motion = .stopping))
      let done := fun x : Station => exec (.driveOff seq) s = .next { s.commit x with port := s.replied seq .ok .empty }
      (active → exec (.driveOff seq) s = .next { s with port := s.replied seq .refused (.reason .moversActive) }) ∧
      (¬active →
        (st.drive = .off → done st) ∧
        (∀ c, st.drive = .tripped c → done (noticed { st with drive := .off })) ∧
        (st.drive = .on → ∃ st' : Station, done st' ∧
          let remote := (List.range st.zones.length).flatMap fun k =>
            (((st.zones[k]?.map Zone.waiting).getD []).filter fun c => c.station ≠ st.own).map fun c =>
              (c.station, Frame.denied c.mover (st.firstZone + k) .drive)
          st'.kept = ({ st with drive := .off } : Station).kept ∧ st'.outbox = [] ∧
          st'.noticeDue = (noticed st).noticeDue ∧ st'.entries = st.entries ∧
          st'.zones = st.zones.map (fun z => { z with waiting := z.waiting.filter fun c => c.station = st.own }) ∧
          st'.sendList.map (fun l => (l.destination, l.content)) =
            st.sendList.map (fun l => (l.destination, l.content)) ++ remote.take (8 - st.sendList.length))))

/-- R157 and R158, R34 for the remote claims; an input not read, or read already, changes its level only (R147; log entry
27). Whether the faults release zones off the body (R61, R57, R80) or all holdings stay (R158, R34) is a free value (log
entry 57). -/
def Obligations.TripInputTripsTheDrive : Prop :=
  ∀ (input : TripCause) (s : State), s.station.outbox = [] →
    let st := s.station
    let levels := fun level : Bool => match input with
      | .coil k =>
        ({ st with overCurrent := if level then st.overCurrent ||| (1#16 <<< k) else st.overCurrent &&& ~~~(1#16 <<< k) } :
          Station)
      | .supply => { st with supplyLow := level }
    let becomes := fun st' : Station => exec (.tripInputActive input) s = .next (s.commit st')
    let read := match input with
      | .coil k => k < st.conf.coils
      | .supply => True
    let was := match input with
      | .coil k => st.overCurrent.getLsbD k
      | .supply => st.supplyLow
    exec (.tripInputInactive input) s = .next (s.commit (levels false)) ∧
    (st.record = none ∨ ¬read ∨ was = true → becomes (levels true)) ∧
    (st.record.isSome = true → read → was = false →
      (st.drive = .off → st.latch = none → becomes { levels true with latch := some input }) ∧
      (st.drive = .off → st.latch ≠ none → becomes (levels true)) ∧
      (∀ c, st.drive = .tripped c → becomes (levels true)) ∧
      (st.drive = .on → st.Tabled →
        let struck := fun e : Entry => (e.state = .resident ∨ e.state = .handing) ∧ e.motion.isFaulted = false
        let remote := fun x : Station => (List.range x.zones.length).flatMap fun k =>
          (((x.zones[k]?.map Zone.waiting).getD []).filter fun c => c.station ≠ st.own).map fun c =>
            (c.station, Frame.denied c.mover (st.firstZone + k) .drive)
        let tripped : Station :=
          { levels true with
            drive := .tripped input, latch := some input, outbox := [.driveTrip input]
            noticeDue := if st.noticeDue.isSome then st.noticeDue else some st.freshDue
            nextPlace := if st.noticeDue.isSome then st.nextPlace else st.nextPlace + 1
            attempt := st.attempt.map fun a =>
              if st.noticeDue.any (fun due => a.place = due.place) then { a with raisedAgain := true } else a }
        let faulted := (st.entries.map Entry.id).foldl Station.tripFault tripped
        ∃ st' : Station, becomes st' ∧
          st'.zones = faulted.zones.map (fun z => { z with waiting := z.waiting.filter fun c => c.station = st.own }) ∧
          st'.sendList.map (fun l => (l.destination, l.content)) =
            faulted.sendList.map (fun l => (l.destination, l.content)) ++
              (remote faulted).take (8 - faulted.sendList.length) ∧
          (∀ (k : Nat) (z : Zone), st.zones[k]? = some z → (∀ e ∈ st.entries, struck e → e.state = .resident →
              e.active.isSome = true → Config.tripKeepsHoldings = false → z.state.heldBy e.id = true →
              st.firstZone + k ∈ bodyZones e.setpoint) →
            ∃ z' : Zone, st'.zones[k]? = some z' ∧ z'.state = z.state ∧ z'.grantOwed = z.grantOwed) ∧
          (∀ (k : Nat) (z : Zone), st.zones[k]? = some z → (∀ e ∈ st.entries, struck e → e.id ∉ z.waiting.map
              WaitClaim.mover ∧ z.state.heldBy e.id = false) → z.state ≠ .free → faulted.zones[k]? = some z) ∧
          st'.kept = ({ levels true with drive := .tripped input, latch := some input } : Station).kept ∧
          (st.noticeDue = none → st'.noticeDue = some st.freshDue) ∧
          (st.noticeDue.isSome = true → st'.noticeDue = st.noticeDue) ∧
          st'.outbox = .driveTrip input :: (st.entries.filter fun e => decide (struck e)).map (fun e =>
            .moverFault e.id .driveTrip (e.active.toList.length + e.queue.length) none) ∧
          (∀ z ∈ st'.zones, ∀ c ∈ z.waiting, c.station = st.own) ∧
          ∀ e ∈ st.entries, struck e → ∃ e' : Entry, st'.entry? e.id = some e' ∧ e'.state = e.state ∧
            e'.motion = .faulted .driveTrip ∧ e'.setpoint = e.setpoint ∧ e'.active = none ∧ e'.queue = [] ∧
            e'.velocity = 0 ∧ e'.demand = 0 ∧
            (e.state = .resident → e'.claim = none ∧ (st.ClaimInPlace e → st.ClaimGivenUp st' e.claim e e')) ∧
            (e.state = .resident ∧ e.active.isSome = true → Config.tripKeepsHoldings = false →
              st.ReleasedOffBody st' e.setpoint e e') ∧
            (e.state = .handing ∨ e.active = none ∨ Config.tripKeepsHoldings = true →
              e'.remoteLower = e.remoteLower ∧ e'.remoteUpper = e.remoteUpper ∧ e'.releaseLower = e.releaseLower ∧ e'.releaseUpper = e.releaseUpper) ∧
            e'.handover = e.handover ∧ ∀ c ∈ st'.coils, c.assigned ≠ some e.id))

/-- R154 to R156; `request` is the table of R155 under the shoot-through guard, given first. A step on an empty queue is one
coil clock (log entry 2); each row of the coil clock lets clocks pass until its moment comes (log entry 5). -/
def Obligations.CoilClockMovesCounterAndSwitches : Prop :=
  (∀ (st : Station) (k : Nat) (c : Coil),
    let allOff : Switches := { ah := false, al := false, bh := false, bl := false }
    (st.record = none → st.request k c = allOff) ∧
    (∀ r : Record, st.record = some r →
      (st.drive ≠ .on → st.request k c =
        { ah := r.idle.ah && !r.idle.al, al := r.idle.al && !r.idle.ah,
          bh := r.idle.bh && !r.idle.bl, bl := r.idle.bl && !r.idle.bh }) ∧
      (st.drive = .on → r.coils ≤ k → st.request k c = allOff) ∧
      (st.drive = .on → k < r.coils →
        (c.applied = .unassigned → st.request k c = allOff) ∧
        (∀ compare, c.applied = .drive .plus compare → st.request k c =
          { ah := decide (st.pwm.count < compare), al := !decide (st.pwm.count < compare), bh := false, bl := true }) ∧
        (∀ compare, c.applied = .drive .minus compare → st.request k c =
          { ah := false, al := true, bh := decide (st.pwm.count < compare), bl := !decide (st.pwm.count < compare) }) ∧
        (∀ compare, c.applied = .drive .zero compare → st.request k c =
          { ah := false, al := true, bh := false, bl := true })))) ∧
  ∀ (s : State),
    let st := s.station
    let after := fun n : Nat => Nat.repeat Station.coilClock n st
    let passes := fun (c : Instr) (n : Nat) => exec c s = .next { s with station := after n }
    let inRange := 1 ≤ st.conf.pwmTop ∧ st.pwm.count ≤ st.conf.pwmTop ∧
      (st.pwm.up = true → st.pwm.count < st.conf.pwmTop) ∧ (st.pwm.up = false → 1 ≤ st.pwm.count)
    (s.pending = [] → step s = .next { s with station := st.coilClock }) ∧
    (st.pwm.running = false → st.coilClock = st) ∧
    (st.pwm.running = true →
      ∃ (p : Pwm) (coils : List Coil), st.coilClock = { st with pwm := p, coils := coils } ∧ p.running = true ∧
        (st.pwm.up = true → p.count = st.pwm.count + 1 ∧ (p.up = true ↔ st.pwm.count + 1 < st.conf.pwmTop)) ∧
        (st.pwm.up = false → p.count = st.pwm.count - 1 ∧ (p.up = true ↔ st.pwm.count - 1 = 0)) ∧
        coils.length = st.coils.length ∧
        (∀ (k : Nat) (before now : Coil), st.coils[k]? = some before → coils[k]? = some now →
          now.assigned = before.assigned ∧ now.preloaded = before.preloaded ∧
          now.applied = (if p.count = 0 then before.preloaded else before.applied) ∧
          let request := ({ st with pwm := p } : Station).request k now
          let deadtime := if st.drive = .on then st.conf.deadtime else 0
          let waited := fun (on : Bool) (off : Nat) => if on then 0 else min (off + 1) 255
          (now.outputs.ah = true ↔ request.ah = true ∧
            (before.outputs.ah = true ∨ deadtime ≤ waited before.outputs.al before.offClocks.al)) ∧
          (now.outputs.al = true ↔ request.al = true ∧
            (before.outputs.al = true ∨ deadtime ≤ waited before.outputs.ah before.offClocks.ah)) ∧
          (now.outputs.bh = true ↔ request.bh = true ∧
            (before.outputs.bh = true ∨ deadtime ≤ waited before.outputs.bl before.offClocks.bl)) ∧
          (now.outputs.bl = true ↔ request.bl = true ∧
            (before.outputs.bl = true ∨ deadtime ≤ waited before.outputs.bh before.offClocks.bh)) ∧
          now.offClocks.ah = waited (now.outputs.ah || before.outputs.ah) before.offClocks.ah ∧
          now.offClocks.al = waited (now.outputs.al || before.outputs.al) before.offClocks.al ∧
          now.offClocks.bh = waited (now.outputs.bh || before.outputs.bh) before.offClocks.bh ∧
          now.offClocks.bl = waited (now.outputs.bl || before.outputs.bl) before.offClocks.bl)) ∧
    (st.pwm.running = true → inRange →
      (∃ n : Nat, 1 ≤ n ∧ n ≤ 2 * st.conf.pwmTop ∧ passes .pwmTurn n ∧ (after n).pwm.count = 0 ∧
        (∀ c ∈ (after n).coils, c.applied = c.preloaded) ∧ ∀ i, 1 ≤ i → i < n → (after i).pwm.count ≠ 0) ∧
      (∀ (k : Nat) (coil : Coil) (pol : Polarity) (c : Nat), st.coils[k]? = some coil →
        coil.applied = .drive pol c → coil.preloaded = coil.applied → pol ≠ .zero → 1 ≤ c → c ≤ st.conf.pwmTop →
        ∃ n : Nat, 1 ≤ n ∧ n ≤ 2 * st.conf.pwmTop ∧ passes (.pwmCompareReached k) n ∧
          decide ((after n).pwm.count < c) ≠ decide ((after (n - 1)).pwm.count < c) ∧
          ∀ i, 1 ≤ i → i < n → decide ((after i).pwm.count < c) = decide ((after (i - 1)).pwm.count < c))) ∧
    (∀ (k : Nat) (sw : SwitchName) (n : Nat), 1 ≤ n → n ≤ 256 →
      (∀ i < n, (after i).switchState k sw = (true, false)) → ((after n).switchState k sw).2 = true →
      passes (.deadtimeElapsed k sw) n)

/-- R177. -/
def Obligations.StoreReadReturnsThePage : Prop :=
  ∀ (seq p : Nat) (s : State), s.station.mode ≠ .loading → p ≤ 1 →
    (s.store.busy = none → ∃ bytes : List Byte,
      exec (.storeRead seq p) s = .next { s with
        port := s.replied seq .ok (.page bytes (if p = 0 then s.store.mark0 else s.store.mark1)) } ∧
      bytes.length = 64 ∧
      ∀ x < 64, bytes[x]? = some ((if p = 0 then s.store.page0 else s.store.page1).read x)) ∧
    (s.store.busy.isSome = true →
      exec (.storeRead seq p) s = .next { s with port := s.replied seq .busy .empty })

/-- R176. -/
def Obligations.StageWritesTheBuffer : Prop :=
  ∀ (seq start : Nat) (data : List Byte) (s : State),
    s.station.mode = .unconfigured ∨ s.station.mode = .maintenance → s.store.busy = none → s.store.Canonical →
    (start ≤ 63 ∨ start = 255 →
      let o := if start = 255 then s.store.offset else start
      ∃ buffer : Memory,
        exec (.storeStage seq start data) s = .next
          { s with
            store := { s.store with buffer := buffer, offset := min 63 (o + data.length) }
            port := s.replied seq .ok (.numbers (min data.length (64 - o)) (min 63 (o + data.length))) } ∧
        ∀ x < 64, buffer.read x =
          if x = 63 ∧ 63 < o + data.length then data.getLast?.getD 0xFF
          else if o ≤ x ∧ x < 63 then (data[x - o]?).getD (s.store.buffer.read x)
          else s.store.buffer.read x) ∧
    exec (.storeClearBuffer seq) s = .next
      { s with store := { s.store with buffer := [], offset := 0 }, port := s.replied seq .ok .empty } ∧
    ∀ x : Nat, Memory.read [] x = 0xFF

/-- R174 and R175; a completion with no operation in flight does not come about (log entry 4). -/
def Obligations.EraseAndCommitRunToCompletion : Prop :=
  ∀ (seq : Nat) (s : State), s.station.outbox = [] →
    let m := s.station.mode
    (∀ c : Instr, portSeq c = some seq → paramsInRange c = true →
      (c = .storeErase seq 0 ∨ c = .storeErase seq 1 ∨ c = .storeCommit seq 0 ∨ c = .storeCommit seq 1 ∨
        c = .storeClearBuffer seq ∨ ∃ start data, c = .storeStage seq start data) →
      (m = .joining ∨ m = .online → exec c s = .next { s with port := s.replied seq .state .empty }) ∧
      (m = .unconfigured ∨ m = .maintenance → s.store.busy.isSome = true →
        exec c s = .next { s with port := s.replied seq .busy .empty })) ∧
    (∀ p : Nat, p ≤ 1 → m = .unconfigured ∨ m = .maintenance → s.store.busy = none →
      let marked := { s.store with mark0 := s.store.mark0 || decide (p = 0), mark1 := s.store.mark1 || decide (p = 1) }
      exec (.storeErase seq p) s = .next
        { s with store := { marked with busy := some (.erase, p) }, port := s.replied seq .ok .empty } ∧
      exec (.storeCommit seq p) s = .next
        { s with store := { marked with busy := some (.commit, p) }, port := s.replied seq .ok .empty }) ∧
    (s.store.busy = none → exec .storeOperationComplete s = .next s) ∧
    (∀ (op : StoreOp) (p : Nat), s.store.busy = some (op, p) → p ≤ 1 → ∃ store : Store,
      exec .storeOperationComplete s = .next
        { s.commit { s.station with outbox := [.storeDone op p] } with store := store } ∧
      store.busy = none ∧ store.mark0 = (s.store.mark0 && decide (p ≠ 0)) ∧
      store.mark1 = (s.store.mark1 && decide (p ≠ 1)) ∧
      (p = 0 → store.page1 = s.store.page1) ∧ (p = 1 → store.page0 = s.store.page0) ∧
      (∀ x < 64, (if p = 0 then store.page0 else store.page1).read x = match op with
        | .erase => 0xFF
        | .commit => (if p = 0 then s.store.page0 else s.store.page1).read x &&& s.store.buffer.read x) ∧
      (op = .erase → store.buffer = s.store.buffer ∧ store.offset = s.store.offset) ∧
      (op = .commit → store.offset = 0 ∧ ∀ x < 64, store.buffer.read x = 0xFF))
end

