-- ==== Sys2Proof/Laws/Reports.lean ====
section
/-! SUPPORT. The report state: what each of its operations does to the fields (R166 to R172), and that each keeps the
report state consistent. -/

namespace Sys2Proof.Machine

open Sys2Proof.Config

/-! ## The line decided again -/

@[simp] theorem Reports.decideLine_queue (r : Reports) (x : Bool) : (r.decideLine x).queue = r.queue := by
  unfold Reports.decideLine; (repeat' split) <;> rfl

@[simp] theorem Reports.decideLine_nextSeq (r : Reports) (x : Bool) : (r.decideLine x).nextSeq = r.nextSeq := by
  unfold Reports.decideLine; (repeat' split) <;> rfl

@[simp] theorem Reports.decideLine_overflow (r : Reports) (x : Bool) : (r.decideLine x).overflow = r.overflow := by
  unfold Reports.decideLine; (repeat' split) <;> rfl

@[simp] theorem Reports.decideLine_flags (r : Reports) (x : Bool) : (r.decideLine x).flags = r.flags := by
  unfold Reports.decideLine; (repeat' split) <;> rfl

@[simp] theorem Reports.decideLine_masks (r : Reports) (x : Bool) : (r.decideLine x).masks = r.masks := by
  unfold Reports.decideLine; (repeat' split) <;> rfl

@[simp] theorem Reports.decideLine_threshold (r : Reports) (x : Bool) : (r.decideLine x).threshold = r.threshold := by
  unfold Reports.decideLine; (repeat' split) <;> rfl

@[simp] theorem Reports.decideLine_age (r : Reports) (x : Bool) : (r.decideLine x).age = r.age := by
  unfold Reports.decideLine; (repeat' split) <;> rfl

@[simp] theorem Reports.decideLine_timerCount (r : Reports) (x : Bool) :
    (r.decideLine x).timerCount = r.timerCount := by
  unfold Reports.decideLine; (repeat' split) <;> rfl

@[simp] theorem Reports.decideLine_anyUnmasked (r : Reports) (x : Bool) :
    (r.decideLine x).anyUnmasked = r.anyUnmasked := by simp [Reports.anyUnmasked, Reports.unmasked]

/-- Where the REPORT line stands after it is decided (R172). -/
theorem Reports.decideLine_line (r : Reports) (x : Bool) :
    (r.decideLine x).lineAsserted =
      (r.anyUnmasked && (r.lineAsserted || decide (r.threshold = 0) || decide (r.threshold ≤ r.queue.length) || x)) := by
  unfold Reports.decideLine
  cases ha : r.anyUnmasked <;> cases hl : r.lineAsserted <;> simp [hl]
  cases x <;> simp <;> split <;> simp_all

/-- Whether the age timer runs after the line is decided (R171). -/
theorem Reports.decideLine_timer (r : Reports) (x : Bool) :
    (r.decideLine x).timerRunning =
      (r.timerRunning && r.anyUnmasked &&
        (r.lineAsserted || !(decide (r.threshold = 0) || decide (r.threshold ≤ r.queue.length) || x))) := by
  unfold Reports.decideLine
  cases ha : r.anyUnmasked <;> cases hl : r.lineAsserted <;> simp
  cases x <;> simp <;> split <;> simp_all <;> omega

/-- Whatever the report state was before, the line decided again agrees with R171 and R172, given what the queue and the
counters keep, that no running timer stands beside an asserted line, and that a running timer is below its age unless
this is its expiry. -/
theorem Reports.decideLine_consistent (r : Reports) (x : Bool)
    (roomy : r.queue.length ≤ reportQueueSize)
    (numbered : ∀ i, ∀ q ∈ r.queue[i]?, (q.seq + (r.queue.length - i)) % 65536 = r.nextSeq % 65536)
    (next : r.nextSeq < 65536) (ovf : r.overflow ≤ 255)
    (stops : r.lineAsserted = true → r.timerRunning = false)
    (below : r.timerRunning = true → r.timerCount < r.age ∨ x = true) : (r.decideLine x).Consistent where
  roomy := by simpa using roomy
  numbered := by simpa using numbered
  nextInRange := by simpa using next
  overflowInRange := by simpa using ovf
  idleWithoutFlag := by
    intro h
    rw [Reports.decideLine_anyUnmasked] at h
    simp [Reports.decideLine_line, Reports.decideLine_timer, h]
  assertedWhenDue := by
    intro h ht
    rw [Reports.decideLine_anyUnmasked] at h
    simp only [Reports.decideLine_threshold, Reports.decideLine_queue] at ht
    simp [Reports.decideLine_line, h, ht]
  timerStopsAtLine := by
    intro h
    rw [Reports.decideLine_line] at h
    rw [Reports.decideLine_timer]
    cases hl : r.lineAsserted with
    | true => simp [stops hl]
    | false =>
      simp only [hl, Bool.false_or, Bool.and_eq_true] at h
      rw [h.2]
      simp
  timerBelowAge := by
    intro h
    rw [Reports.decideLine_timer] at h
    simp only [Reports.decideLine_timerCount, Reports.decideLine_age]
    simp only [Bool.and_eq_true] at h
    rcases below h.1.1 with hb | hx
    · exact hb
    · cases hl : r.lineAsserted with
      | true => simp [stops hl] at h
      | false => simp [hx, hl] at h

/-! ## The age timer's start -/

@[simp] theorem Reports.startTimer_queue (r : Reports) : r.startTimer.queue = r.queue := by
  unfold Reports.startTimer; split <;> rfl

@[simp] theorem Reports.startTimer_nextSeq (r : Reports) : r.startTimer.nextSeq = r.nextSeq := by
  unfold Reports.startTimer; split <;> rfl

@[simp] theorem Reports.startTimer_overflow (r : Reports) : r.startTimer.overflow = r.overflow := by
  unfold Reports.startTimer; split <;> rfl

@[simp] theorem Reports.startTimer_flags (r : Reports) : r.startTimer.flags = r.flags := by
  unfold Reports.startTimer; split <;> rfl

@[simp] theorem Reports.startTimer_masks (r : Reports) : r.startTimer.masks = r.masks := by
  unfold Reports.startTimer; split <;> rfl

theorem Reports.startTimer_stops {r : Reports} (h : r.lineAsserted = true → r.timerRunning = false) :
    r.startTimer.lineAsserted = true → r.startTimer.timerRunning = false := by
  unfold Reports.startTimer
  split
  · next hs => simp_all
  · exact h

theorem Reports.startTimer_below {r : Reports} (h : r.timerRunning = true → r.timerCount < r.age) :
    r.startTimer.timerRunning = true → r.startTimer.timerCount < r.startTimer.age := by
  unfold Reports.startTimer
  split
  · next hs =>
    simp only [Bool.and_eq_true, decide_eq_true_eq] at hs
    intro _
    exact hs.2
  · exact h

/-! ## Each operation keeps the report state consistent -/

theorem Reports.Consistent.atReset : Reports.atReset.Consistent where
  roomy := by decide
  numbered := by intro i q h; simp [Reports.atReset] at h
  nextInRange := by decide
  overflowInRange := by decide
  idleWithoutFlag := by intro _; exact ⟨rfl, rfl⟩
  assertedWhenDue := by decide
  timerStopsAtLine := by intro h; rfl
  timerBelowAge := by decide

/-- A record appended keeps the numbering (R166). -/
theorem Reports.Consistent.numbered_append {r : Reports} (h : r.Consistent) (time : Nat) (b : ReportBody) :
    ∀ i, ∀ q ∈ (r.queue ++ [ReportRecord.mk r.nextSeq time b])[i]?,
      (q.seq + ((r.queue ++ [ReportRecord.mk r.nextSeq time b]).length - i)) % 65536 =
        ((r.nextSeq + 1) % 65536) % 65536 := by
  intro i q hq
  rw [Option.mem_def, List.getElem?_append] at hq
  rw [List.length_append, List.length_singleton]
  split at hq
  · next hi =>
    have := h.numbered i q hq
    omega
  · next hi =>
    have hz : i - r.queue.length = 0 := by
      have hl := (List.getElem?_eq_some_iff.mp hq).1
      simp only [List.length_singleton] at hl
      omega
    rw [hz] at hq
    simp only [List.getElem?_cons_zero, Option.some.injEq] at hq
    subst hq
    dsimp only
    omega

theorem Reports.Consistent.add {r : Reports} (h : r.Consistent) (time : Nat) (b : ReportBody) :
    (r.add time b).Consistent := by
  unfold Reports.add
  split
  · next hroom =>
    have hn := h.numbered_append time b
    have hlen : (r.queue ++ [ReportRecord.mk r.nextSeq time b]).length ≤ reportQueueSize := by
      rw [List.length_append, List.length_singleton]
      omega
    dsimp only
    split
    · refine Reports.decideLine_consistent _ _ ?_ ?_ ?_ ?_ ?_ ?_
      · rw [Reports.startTimer_queue]; exact hlen
      · rw [Reports.startTimer_queue, Reports.startTimer_nextSeq]; exact hn
      · rw [Reports.startTimer_nextSeq]; exact Nat.mod_lt _ (by decide)
      · rw [Reports.startTimer_overflow]; exact h.overflowInRange
      · exact Reports.startTimer_stops h.timerStopsAtLine
      · exact fun ht => .inl (Reports.startTimer_below (r := { r with queue := _, nextSeq := _, flags := _ })
          h.timerBelowAge ht)
    · exact Reports.decideLine_consistent _ _ hlen hn (Nat.mod_lt _ (by decide)) h.overflowInRange
        h.timerStopsAtLine fun ht => .inl (h.timerBelowAge ht)
  · exact ⟨h.roomy, h.numbered, h.nextInRange, Nat.min_le_right _ _, h.idleWithoutFlag, h.assertedWhenDue,
      h.timerStopsAtLine, h.timerBelowAge⟩

theorem Reports.Consistent.addAll {r : Reports} (h : r.Consistent) (time : Nat) (bs : List ReportBody) :
    (r.addAll time bs).Consistent := by
  unfold Reports.addAll
  induction bs generalizing r with
  | nil => exact h
  | cons b bs ih => exact ih (h.add time b)

theorem Reports.Consistent.remove {r : Reports} (h : r.Consistent) (count : Nat) : (r.remove count).Consistent := by
  refine Reports.decideLine_consistent _ _ ?_ ?_ h.nextInRange h.overflowInRange h.timerStopsAtLine
    fun ht => .inl (h.timerBelowAge ht)
  · exact Nat.le_trans (by simp) h.roomy
  · intro i q hq
    rw [Option.mem_def, List.getElem?_drop] at hq
    have := h.numbered _ q hq
    have hl := (List.getElem?_eq_some_iff.mp hq).1
    simp only [List.length_drop] at *
    have e : r.queue.length - count - i = r.queue.length - (count + i) := by omega
    rw [e]
    exact this

theorem Reports.Consistent.ack {r : Reports} (h : r.Consistent) (classes : BitVec 6) (clear : Bool) :
    (r.ack classes clear).Consistent := by
  refine Reports.decideLine_consistent _ _ h.roomy h.numbered h.nextInRange ?_ h.timerStopsAtLine
    fun ht => .inl (h.timerBelowAge ht)
  show (if clear = true then 0 else r.overflow) ≤ 255
  split
  · omega
  · exact h.overflowInRange

theorem Reports.Consistent.setMasks {r : Reports} (h : r.Consistent) (masks : BitVec 6) :
    (r.setMasks masks).Consistent := by
  unfold Reports.setMasks
  dsimp only
  split
  · refine Reports.decideLine_consistent _ _ ?_ ?_ ?_ ?_ ?_ ?_
    · rw [Reports.startTimer_queue]; exact h.roomy
    · rw [Reports.startTimer_queue, Reports.startTimer_nextSeq]; exact h.numbered
    · rw [Reports.startTimer_nextSeq]; exact h.nextInRange
    · rw [Reports.startTimer_overflow]; exact h.overflowInRange
    · exact Reports.startTimer_stops h.timerStopsAtLine
    · exact fun ht => .inl (Reports.startTimer_below (r := { r with masks := _ }) h.timerBelowAge ht)
  · exact Reports.decideLine_consistent _ _ h.roomy h.numbered h.nextInRange h.overflowInRange h.timerStopsAtLine
      fun ht => .inl (h.timerBelowAge ht)

theorem Reports.Consistent.setMitigation {r : Reports} (h : r.Consistent) (threshold age : Nat) :
    (r.setMitigation threshold age).Consistent := by
  refine Reports.decideLine_consistent _ _ h.roomy h.numbered h.nextInRange h.overflowInRange ?_ ?_
  · intro hl
    simp [h.timerStopsAtLine hl]
  · intro ht
    dsimp only at ht ⊢
    by_cases ha : age ≤ r.timerCount
    · exact .inr (by simp [ht, ha])
    · exact .inl (by omega)

theorem Reports.Consistent.tick {r : Reports} (h : r.Consistent) : r.tick.Consistent := by
  unfold Reports.tick
  split
  · next ht =>
    dsimp only
    split
    · exact Reports.decideLine_consistent _ _ h.roomy h.numbered h.nextInRange h.overflowInRange h.timerStopsAtLine
        fun _ => .inr rfl
    · exact ⟨h.roomy, h.numbered, h.nextInRange, h.overflowInRange, h.idleWithoutFlag, h.assertedWhenDue,
        h.timerStopsAtLine, fun _ => by dsimp only; omega⟩
  · exact h

end Sys2Proof.Machine
end

