-- ==== Sys2Proof/Laws/Kept.lean ====
section
/-! SUPPORT. What the work on entries, zones and sends leaves alone: the fields gathered in `Station.Kept` are unchanged by
every shared operation below. `sendBound` is 8 while the Send List is within its 8 entries (R101), so its being kept says
that the list stays within them. A proof cites these lemmas instead of unfolding the operations. -/

namespace Sys2Proof.Machine

/-- What a fold of operations keeps when each of them keeps it. -/
theorem Station.kept_foldl {α : Type} (f : Station → α → Station) (h : ∀ st x, (f st x).kept = st.kept) (xs : List α)
    (st : Station) : (xs.foldl f st).kept = st.kept := by
  induction xs generalizing st with
  | nil => rfl
  | cons x xs ih => rw [List.foldl_cons, ih, h]

/-- A side record keeps its neighbour. -/
@[simp] theorem Station.setSide_kept (st : Station) (d : Side) (r : SideRecord)
    (h : r.neighbour = (st.side d).neighbour) : (st.setSide d r).kept = st.kept := by
  cases d <;> simp_all [Station.setSide, Station.side, Station.kept]

/-- The number of zones and the fields beside them stay when every zone is changed in its place. -/
@[simp] theorem Station.mapZones_kept (st : Station) (f : Zone → Zone) :
    ({ st with zones := st.zones.map f } : Station).kept = st.kept := by simp [Station.kept]

/-- A loose send leaves a Send List within its bound (R101). -/
@[simp] theorem Station.placeSend_kept (st : Station) (n : Address) (f : Frame) :
    (st.placeSend n f).kept = st.kept := by
  unfold Station.placeSend Station.sendsFree Config.sendListSize
  split
  · rfl
  · simp only [Station.kept, List.length_append, List.length_singleton, Station.Kept.mk.injEq, true_and, and_true]
    omega

@[simp] theorem Station.putEntry_kept (st : Station) (e : Entry) :
    (st.putEntry e).kept = st.kept := by
  rfl

@[simp] theorem Station.modifyEntry_kept (st : Station) (m : MoverId) (f : Entry → Entry) :
    (st.modifyEntry m f).kept = st.kept := by
  rfl

@[simp] theorem Station.eraseEntry_kept (st : Station) (m : MoverId) :
    (st.eraseEntry m).kept = st.kept := by
  rfl

@[simp] theorem Station.modifyZone_kept (st : Station) (k : Nat) (f : Zone → Zone) :
    (st.modifyZone k f).kept = st.kept := by
  simp [Station.modifyZone, Station.kept]

@[simp] theorem Station.bump_kept (st : Station) :
    (st.bump).kept = st.kept := by
  rfl

@[simp] theorem Station.report_kept (st : Station) (b : ReportBody) :
    (st.report b).kept = st.kept := by
  rfl

@[simp] theorem Station.oweRelease_kept (st : Station) (m : MoverId) (d : Side) (zones : List ZoneNo) :
    (st.oweRelease m d zones).kept = st.kept := by
  unfold Station.oweRelease
  dsimp -failIfUnchanged only
  (repeat' split) <;> first | rfl | simp | (simp; rfl)

@[simp] theorem Station.recompute_kept (st : Station) (m : MoverId) :
    (st.recompute m).kept = st.kept := by
  unfold Station.recompute Station.kept
  split <;> simp

@[simp] theorem Station.unassignCoil_kept (st : Station) (k : Nat) :
    (st.unassignCoil k).kept = st.kept := by
  simp [Station.unassignCoil, Station.kept]

@[simp] theorem Station.writeDemand_kept (st : Station) (m : MoverId) (demand : Int) :
    (st.writeDemand m demand).kept = st.kept := by
  unfold Station.writeDemand
  dsimp -failIfUnchanged only
  (repeat' split) <;> first | rfl | simp | (simp; rfl)

@[simp] theorem Station.freeZone_kept (st : Station) (k : Nat) :
    (st.freeZone k).kept = st.kept := by
  unfold Station.freeZone
  dsimp -failIfUnchanged only
  (repeat' split) <;> first | rfl | simp | (simp; rfl)

@[simp] theorem Station.makeVisitor_kept (st : Station) (m : MoverId) (n : Address) :
    (st.makeVisitor m n).kept = st.kept := by
  unfold Station.makeVisitor
  dsimp -failIfUnchanged only
  (repeat' split) <;> first | rfl | simp | (simp; rfl)

@[simp] theorem Station.grantZone_kept (st : Station) (k : Nat) (m : MoverId) (n : Address) (cls : ClaimClass) :
    (st.grantZone k m n cls).kept = st.kept := by
  unfold Station.grantZone
  dsimp -failIfUnchanged only
  (repeat' split) <;> first | rfl | simp | (simp; rfl)

@[simp] theorem Station.denyClaim_kept (st : Station) (m : MoverId) (g : ZoneNo) (r : DenialReason) :
    (st.denyClaim m g r).kept = st.kept := by
  unfold Station.denyClaim
  dsimp -failIfUnchanged only
  (repeat' split) <;> first | rfl | simp | (simp; rfl)

@[simp] theorem Station.popHead_kept (st : Station) (k : Nat) :
    (st.popHead k).kept = st.kept := by
  unfold Station.popHead
  dsimp -failIfUnchanged only
  (repeat' split) <;> first | rfl | simp | (simp; rfl)

@[simp] theorem Station.grantHead_kept (st : Station) (k : Nat) (c : WaitClaim) (cls : ClaimClass) :
    (st.grantHead k c cls).kept = st.kept := by
  unfold Station.grantHead
  dsimp -failIfUnchanged only
  (repeat' split) <;> first | rfl | simp | (simp; rfl)

@[simp] theorem Station.tellDenied_kept (st : Station) (k : Nat) (c : WaitClaim) (r : DenialReason) :
    (st.tellDenied k c r).kept = st.kept := by
  unfold Station.tellDenied
  dsimp -failIfUnchanged only
  (repeat' split) <;> first | rfl | simp | (simp; rfl)

/-- The examination of wait lists keeps the kept fields, however far it goes (R29). -/
@[simp] theorem Station.examineLoop_kept (fuel : Nat) (ls : List Look) (st : Station) :
    (Station.examineLoop fuel ls st).kept = st.kept := by
  induction fuel generalizing ls st with
  | zero => simp [Station.examineLoop]
  | succ n ih =>
    cases ls with
    | nil => simp [Station.examineLoop]
    | cons l ls =>
      simp only [Station.examineLoop]
      (repeat' split) <;> simp [ih]

@[simp] theorem Station.examineAll_kept (st : Station) (ls : List Look) : (st.examineAll ls).kept = st.kept := by
  simp [Station.examineAll]

@[simp] theorem Station.examine_kept (st : Station) (ks : List Nat) : (st.examine ks).kept = st.kept := by
  simp [Station.examine]

@[simp] theorem Station.offerEntry_kept (st : Station) : (st.offerEntry).kept = st.kept := by
  simp [Station.offerEntry]

@[simp] theorem Station.freeEntry_kept (st : Station) (m : MoverId) :
    (st.freeEntry m).kept = st.kept := by
  unfold Station.freeEntry
  dsimp -failIfUnchanged only
  (repeat' split) <;> first | rfl | simp | (simp; rfl)

@[simp] theorem Station.testVisitor_kept (st : Station) (m : MoverId) :
    (st.testVisitor m).kept = st.kept := by
  unfold Station.testVisitor
  dsimp -failIfUnchanged only
  (repeat' split) <;> first | rfl | simp | (simp; rfl)

@[simp] theorem Station.releaseZone_kept (st : Station) (k : Nat) :
    (st.releaseZone k).kept = st.kept := by
  unfold Station.releaseZone
  dsimp -failIfUnchanged only
  (repeat' split) <;> first | rfl | simp | (simp; rfl)

@[simp] theorem Station.releaseOwn_kept (st : Station) (m : MoverId) (ks : List Nat) :
    (st.releaseOwn m ks).kept = st.kept := by
  unfold Station.releaseOwn
  refine Station.kept_foldl _ (fun st x => ?_) _ _
  (repeat' split) <;> simp

@[simp] theorem Station.unlistClaim_kept (st : Station) (k : Nat) (m : MoverId) :
    (st.unlistClaim k m).kept = st.kept := Station.modifyZone_kept st k _

@[simp] theorem Station.dropClaim_kept (st : Station) (k : Nat) (m : MoverId) :
    (st.dropClaim k m).kept = st.kept := by
  unfold Station.dropClaim
  dsimp -failIfUnchanged only
  (repeat' split) <;> first | rfl | simp | (simp; rfl)

@[simp] theorem Station.removeClaim_kept (st : Station) (k : Nat) (m : MoverId) :
    (st.removeClaim k m).kept = st.kept := by
  unfold Station.removeClaim
  dsimp -failIfUnchanged only
  (repeat' split) <;> first | rfl | simp | (simp; rfl)

@[simp] theorem Station.denyRemoteClaims_kept (st : Station) :
    (st.denyRemoteClaims).kept = st.kept := by
  unfold Station.denyRemoteClaims
  rw [Station.kept_foldl _ fun st p => Station.testVisitor_kept st _,
    Station.kept_foldl _ fun st p => Station.tellDenied_kept st _ _ _, Station.mapZones_kept]

@[simp] theorem Station.queueClaim_kept (st : Station) (k : Nat) (m : MoverId) (n : Address) (cls : ClaimClass) :
    (st.queueClaim k m n cls).kept = st.kept := by
  unfold Station.queueClaim
  dsimp -failIfUnchanged only
  (repeat' split) <;> first | rfl | simp | (simp; rfl)

@[simp] theorem Station.admitClaim_kept (st : Station) (k : Nat) (m : MoverId) (n : Address) (cls : ClaimClass) :
    (st.admitClaim k m n cls).kept = st.kept := by
  unfold Station.admitClaim
  dsimp -failIfUnchanged only
  (repeat' split) <;> first | rfl | simp | (simp; rfl)

@[simp] theorem Station.claimOwn_kept (st : Station) (m : MoverId) (g : ZoneNo) :
    (st.claimOwn m g).kept = st.kept := by
  unfold Station.claimOwn
  dsimp -failIfUnchanged only
  (repeat' split) <;> first | rfl | simp | (simp; rfl)

@[simp] theorem Station.claimRemote_kept (st : Station) (m : MoverId) (g : ZoneNo) :
    (st.claimRemote m g).kept = st.kept := by
  unfold Station.claimRemote
  dsimp -failIfUnchanged only
  (repeat' split) <;> first | rfl | simp | (simp; rfl)

@[simp] theorem Station.oweCancel_kept (st : Station) (m : MoverId) (g : ZoneNo) :
    (st.oweCancel m g).kept = st.kept := by
  unfold Station.oweCancel
  dsimp -failIfUnchanged only
  (repeat' split) <;> first | rfl | simp | (simp; rfl)

@[simp] theorem Station.giveUpClaim_kept (st : Station) (m : MoverId) :
    (st.giveUpClaim m).kept = st.kept := by
  unfold Station.giveUpClaim
  dsimp -failIfUnchanged only
  (repeat' split) <;> first | rfl | simp | (simp; rfl)

@[simp] theorem Station.releaseRemote_kept (st : Station) (m : MoverId) (gs : List ZoneNo) :
    (st.releaseRemote m gs).kept = st.kept := by
  unfold Station.releaseRemote
  dsimp -failIfUnchanged only
  (repeat' split) <;> first | rfl | simp | (simp; rfl)

@[simp] theorem Station.releaseUntouched_kept (st : Station) (m : MoverId) (p : Position) :
    (st.releaseUntouched m p).kept = st.kept := by
  unfold Station.releaseUntouched
  dsimp -failIfUnchanged only
  (repeat' split) <;> first | rfl | simp | (simp; rfl)

@[simp] theorem Station.endMove_kept (st : Station) (m : MoverId) :
    (st.endMove m).kept = st.kept := by
  unfold Station.endMove
  dsimp -failIfUnchanged only
  (repeat' split) <;> first | rfl | simp | (simp; rfl)

@[simp] theorem Station.faulted_kept (st : Station) (e : Entry) (cause : FaultCause) (refusal : Option HandoverRefusal) :
    (st.faulted e cause refusal).kept = st.kept := by
  unfold Station.faulted
  simp

@[simp] theorem Station.enterFault_kept (st : Station) (m : MoverId) (cause : FaultCause) (refusal : Option HandoverRefusal) :
    (st.enterFault m cause refusal).kept = st.kept := by
  unfold Station.enterFault
  dsimp -failIfUnchanged only
  (repeat' split) <;> first | rfl | simp | (simp; rfl)

@[simp] theorem Station.faultEach_kept (st : Station) (ms : List MoverId) (p : Entry → Bool) (cause : FaultCause) :
    (st.faultEach ms p cause).kept = st.kept := by
  unfold Station.faultEach
  refine Station.kept_foldl _ (fun st x => ?_) _ _
  (repeat' split) <;> simp

@[simp] theorem Station.tripFault_kept (st : Station) (m : MoverId) : (st.tripFault m).kept = st.kept := by
  unfold Station.tripFault
  (repeat' split) <;> simp

@[simp] theorem Station.endHandover_kept (st : Station) (m : MoverId) (cause : FaultCause) (refusal : Option HandoverRefusal) :
    (st.endHandover m cause refusal).kept = st.kept := by
  unfold Station.endHandover
  dsimp -failIfUnchanged only
  (repeat' split) <;> first | rfl | simp | (simp; rfl)

@[simp] theorem Station.closeSide_kept (st : Station) (d : Side) (r : ClosedReason) :
    (st.closeSide d r).kept = st.kept := by
  unfold Station.closeSide
  dsimp -failIfUnchanged only
  (repeat' split) <;> first | rfl | simp | (simp; rfl)

@[simp] theorem Station.openSide_kept (st : Station) (d : Side) :
    (st.openSide d).kept = st.kept := by
  unfold Station.openSide
  dsimp -failIfUnchanged only
  (repeat' split) <;> first | rfl | simp | (simp; rfl)

@[simp] theorem Station.raisedAgain_kept (st : Station) (place : Nat) :
    (st.raisedAgain place).kept = st.kept := by
  rfl

@[simp] theorem Station.owePresent_kept (st : Station) (d : Side) (wanted : Bool) :
    (st.owePresent d wanted).kept = st.kept := by
  unfold Station.owePresent
  dsimp -failIfUnchanged only
  (repeat' split) <;> first | rfl | simp | (simp; rfl)

@[simp] theorem Station.oweNotice_kept (st : Station) :
    (st.oweNotice).kept = st.kept := by
  unfold Station.oweNotice
  dsimp -failIfUnchanged only
  (repeat' split) <;> first | rfl | simp | (simp; rfl)

@[simp] theorem Station.applyMove_kept (st : Station) (m : MoverId) (r : MoveRecord) :
    (st.applyMove m r).kept = st.kept := by
  unfold Station.applyMove
  dsimp -failIfUnchanged only
  (repeat' split) <;> first | rfl | simp | (simp; rfl)

@[simp] theorem Station.applyAbort_kept (st : Station) (m : MoverId) :
    (st.applyAbort m).kept = st.kept := by
  unfold Station.applyAbort
  dsimp -failIfUnchanged only
  (repeat' split) <;> first | rfl | simp | (simp; rfl)

@[simp] theorem Station.applyClear_kept (st : Station) (m : MoverId) :
    (st.applyClear m).kept = st.kept := by
  unfold Station.applyClear
  dsimp -failIfUnchanged only
  (repeat' split) <;> first | rfl | simp | (simp; rfl)

@[simp] theorem Station.applyKind_kept (st : Station) (m : MoverId) (x0 : OrderKind) :
    (st.applyKind m x0).kept = st.kept := by
  unfold Station.applyKind
  dsimp -failIfUnchanged only
  (repeat' split) <;> first | rfl | simp | (simp; rfl)

@[simp] theorem Station.applyOrder_kept (st : Station) (e : Entry) (k : OrderKind) :
    (st.applyOrder e k).kept = st.kept := by
  unfold Station.applyOrder
  dsimp -failIfUnchanged only
  (repeat' split) <;> first | rfl | simp | (simp; rfl)

@[simp] theorem Station.claimTimedOut_kept (st : Station) (m : MoverId) (c : Claim) :
    (st.claimTimedOut m c).kept = st.kept := by
  unfold Station.claimTimedOut
  dsimp -failIfUnchanged only
  (repeat' split) <;> first | rfl | simp | (simp; rfl)

@[simp] theorem Station.claimTimer_kept (st : Station) (m : MoverId) :
    (st.claimTimer m).kept = st.kept := by
  unfold Station.claimTimer
  dsimp -failIfUnchanged only
  (repeat' split) <;> first | rfl | simp | (simp; rfl)

@[simp] theorem Station.handoverTimedOut_kept (st : Station) (m : MoverId) (h : Handover) :
    (st.handoverTimedOut m h).kept = st.kept := by
  unfold Station.handoverTimedOut
  dsimp -failIfUnchanged only
  (repeat' split) <;> first | rfl | simp | (simp; rfl)

@[simp] theorem Station.handoverTimer_kept (st : Station) (m : MoverId) :
    (st.handoverTimer m).kept = st.kept := by
  unfold Station.handoverTimer
  dsimp -failIfUnchanged only
  (repeat' split) <;> first | rfl | simp | (simp; rfl)

@[simp] theorem Station.followCheck_kept (st : Station) (m : MoverId) :
    (st.followCheck m).kept = st.kept := by
  unfold Station.followCheck
  dsimp -failIfUnchanged only
  (repeat' split) <;> first | rfl | simp | (simp; rfl)

@[simp] theorem Station.dwellTick_kept (st : Station) (m : MoverId) :
    (st.dwellTick m).kept = st.kept := by
  unfold Station.dwellTick
  dsimp -failIfUnchanged only
  (repeat' split) <;> first | rfl | simp | (simp; rfl)

@[simp] theorem Station.endDenied_kept (st : Station) (m : MoverId) :
    (st.endDenied m).kept = st.kept := by
  unfold Station.endDenied
  dsimp -failIfUnchanged only
  (repeat' split) <;> first | rfl | simp | (simp; rfl)

@[simp] theorem Station.endTimeout_kept (st : Station) (m : MoverId) :
    (st.endTimeout m).kept = st.kept := by
  unfold Station.endTimeout
  dsimp -failIfUnchanged only
  (repeat' split) <;> first | rfl | simp | (simp; rfl)

@[simp] theorem Station.zoneWaitTick_kept (st : Station) (m : MoverId) :
    (st.zoneWaitTick m).kept = st.kept := by
  unfold Station.zoneWaitTick
  dsimp -failIfUnchanged only
  (repeat' split) <;> first | rfl | simp | (simp; rfl)

@[simp] theorem Station.timedPart_kept (st : Station) (m : MoverId) :
    (st.timedPart m).kept = st.kept := by
  unfold Station.timedPart
  dsimp -failIfUnchanged only
  (repeat' split) <;> first | rfl | simp | (simp; rfl)

@[simp] theorem Station.startPart_kept (st : Station) (m : MoverId) :
    (st.startPart m).kept = st.kept := by
  unfold Station.startPart
  dsimp -failIfUnchanged only
  (repeat' split) <;> first | rfl | simp | (simp; rfl)

@[simp] theorem Station.completeMove_kept (st : Station) (m : MoverId) (r : MoveRecord) :
    (st.completeMove m r).kept = st.kept := by
  unfold Station.completeMove
  dsimp -failIfUnchanged only
  (repeat' split) <;> first | rfl | simp | (simp; rfl)

@[simp] theorem Station.reachHoldLimit_kept (st : Station) (m : MoverId) :
    (st.reachHoldLimit m).kept = st.kept := by
  unfold Station.reachHoldLimit
  dsimp -failIfUnchanged only
  (repeat' split) <;> first | rfl | simp | (simp; rfl)

@[simp] theorem Station.stepMoving_kept (st : Station) (m : MoverId) :
    (st.stepMoving m).kept = st.kept := by
  unfold Station.stepMoving
  dsimp -failIfUnchanged only
  (repeat' split) <;> first | rfl | simp | (simp; rfl)

@[simp] theorem Station.stepStopping_kept (st : Station) (m : MoverId) :
    (st.stepStopping m).kept = st.kept := by
  unfold Station.stepStopping
  dsimp -failIfUnchanged only
  (repeat' split) <;> first | rfl | simp | (simp; rfl)

@[simp] theorem Station.stepPart_kept (st : Station) (m : MoverId) :
    (st.stepPart m).kept = st.kept := by
  unfold Station.stepPart
  dsimp -failIfUnchanged only
  (repeat' split) <;> first | rfl | simp | (simp; rfl)

@[simp] theorem Station.becomeHanding_kept (st : Station) (e : Entry) :
    (st.becomeHanding e).kept = st.kept := by
  unfold Station.becomeHanding
  dsimp -failIfUnchanged only
  (repeat' split) <;> first | rfl | simp | (simp; rfl)

@[simp] theorem Station.transferPart_kept (st : Station) (m : MoverId) :
    (st.transferPart m).kept = st.kept := by
  unfold Station.transferPart
  dsimp -failIfUnchanged only
  (repeat' split) <;> first | rfl | simp | (simp; rfl)

@[simp] theorem Station.releasePart_kept (st : Station) (m : MoverId) (d : Int) :
    (st.releasePart m d).kept = st.kept := by
  unfold Station.releasePart
  dsimp -failIfUnchanged only
  (repeat' split) <;> first | rfl | simp | (simp; rfl)

@[simp] theorem Station.claimPart_kept (st : Station) (m : MoverId) :
    (st.claimPart m).kept = st.kept := by
  unfold Station.claimPart
  dsimp -failIfUnchanged only
  (repeat' split) <;> first | rfl | simp | (simp; rfl)

@[simp] theorem Station.trackPart_kept (st : Station) (m : MoverId) :
    (st.trackPart m).kept = st.kept := by
  unfold Station.trackPart
  dsimp -failIfUnchanged only
  (repeat' split) <;> first | rfl | simp | (simp; rfl)

@[simp] theorem Station.demandPart_kept (st : Station) (m : MoverId) (before : Int) :
    (st.demandPart m before).kept = st.kept := by
  unfold Station.demandPart
  dsimp -failIfUnchanged only
  (repeat' split) <;> first | rfl | simp | (simp; rfl)

@[simp] theorem Station.visitorWork_kept (st : Station) (m : MoverId) :
    (st.visitorWork m).kept = st.kept := by
  unfold Station.visitorWork
  dsimp -failIfUnchanged only
  (repeat' split) <;> first | rfl | simp | (simp; rfl)

@[simp] theorem Station.parts_kept (st : Station) (m : MoverId) (e : Entry) :
    (st.parts m e).kept = st.kept := by
  unfold Station.parts
  dsimp -failIfUnchanged only
  (repeat' split) <;> first | rfl | simp | (simp; rfl)

@[simp] theorem Station.ownerWork_kept (st : Station) (m : MoverId) :
    (st.ownerWork m).kept = st.kept := by
  unfold Station.ownerWork
  dsimp -failIfUnchanged only
  (repeat' split) <;> first | rfl | simp | (simp; rfl)

@[simp] theorem Station.workEntry_kept (st : Station) (m : MoverId) :
    (st.workEntry m).kept = st.kept := by
  unfold Station.workEntry
  dsimp -failIfUnchanged only
  (repeat' split) <;> first | rfl | simp | (simp; rfl)

@[simp] theorem Station.probeTick_kept (st : Station) (d : Side) :
    (st.probeTick d).kept = st.kept := by
  unfold Station.probeTick
  dsimp -failIfUnchanged only
  (repeat' split) <;> first | rfl | simp | (simp; rfl)

@[simp] theorem Station.claimFrom_kept (st : Station) (n : Address) (m : MoverId) (g : ZoneNo) (entryFlag : Bool) :
    (st.claimFrom n m g entryFlag).kept = st.kept := by
  unfold Station.claimFrom
  dsimp -failIfUnchanged only
  (repeat' split) <;> first | rfl | simp | (simp; rfl)

@[simp] theorem Station.releaseFrom_kept (st : Station) (s : Address) (m : MoverId) (f n : Nat) :
    (st.releaseFrom s m f n).kept = st.kept := by
  unfold Station.releaseFrom
  dsimp -failIfUnchanged only
  (repeat' split) <;> first | rfl | simp | (simp; rfl)

@[simp] theorem Station.cancelFrom_kept (st : Station) (s : Address) (m : MoverId) (g : ZoneNo) :
    (st.cancelFrom s m g).kept = st.kept := by
  unfold Station.cancelFrom
  dsimp -failIfUnchanged only
  (repeat' split) <;> first | rfl | simp | (simp; rfl)

@[simp] theorem Station.grantFrom_kept (st : Station) (n : Address) (m : MoverId) (g : ZoneNo) :
    (st.grantFrom n m g).kept = st.kept := by
  unfold Station.grantFrom
  dsimp -failIfUnchanged only
  (repeat' split) <;> first | rfl | simp | (simp; rfl)

@[simp] theorem Station.queuedFrom_kept (st : Station) (n : Address) (m : MoverId) (g : ZoneNo) (place : Nat) :
    (st.queuedFrom n m g place).kept = st.kept := by
  unfold Station.queuedFrom
  dsimp -failIfUnchanged only
  (repeat' split) <;> first | rfl | simp | (simp; rfl)

@[simp] theorem Station.deniedFrom_kept (st : Station) (n : Address) (m : MoverId) (g : ZoneNo) (r : DenialReason) :
    (st.deniedFrom n m g r).kept = st.kept := by
  unfold Station.deniedFrom
  dsimp -failIfUnchanged only
  (repeat' split) <;> first | rfl | simp | (simp; rfl)

@[simp] theorem Station.deferredFrom_kept (st : Station) (n : Address) (m : MoverId) (g : ZoneNo) :
    (st.deferredFrom n m g).kept = st.kept := by
  unfold Station.deferredFrom
  dsimp -failIfUnchanged only
  (repeat' split) <;> first | rfl | simp | (simp; rfl)

@[simp] theorem Station.relabelZone_kept (st : Station) (k : Nat) (m : MoverId) (s : Address) :
    (st.relabelZone k m s).kept = st.kept := by
  unfold Station.relabelZone
  dsimp -failIfUnchanged only
  (repeat' split) <;> first | rfl | simp | (simp; rfl)

@[simp] theorem Station.relabelClaim_kept (st : Station) (k : Nat) (m : MoverId) (s : Address) :
    (st.relabelClaim k m s).kept = st.kept := by
  unfold Station.relabelClaim
  dsimp -failIfUnchanged only
  (repeat' split) <;> first | rfl | simp | (simp; rfl)

@[simp] theorem Station.settleZones_kept (st : Station) (c : HandoverContent) :
    (st.settleZones c).kept = st.kept := by
  unfold Station.settleZones
  refine Station.kept_foldl _ (fun st x => ?_) _ _
  dsimp only
  split <;> simp

@[simp] theorem Station.settleClaims_kept (st : Station) (c : HandoverContent) :
    (st.settleClaims c).kept = st.kept := by
  unfold Station.settleClaims
  refine Station.kept_foldl _ (fun st x => ?_) _ _
  (repeat' split) <;> simp

@[simp] theorem Station.takeFaults_kept (st : Station) (n : Address) (m : MoverId) (p : Position) :
    (st.takeFaults n m p).kept = st.kept := by
  unfold Station.takeFaults
  dsimp -failIfUnchanged only
  (repeat' split) <;> first | rfl | simp | (simp; rfl)

@[simp] theorem Station.takeHandover_kept (st : Station) (n : Address) (c : HandoverContent) :
    (st.takeHandover n c).kept = st.kept := by
  unfold Station.takeHandover
  dsimp -failIfUnchanged only
  (repeat' split) <;> first | rfl | simp | (simp; rfl)

@[simp] theorem Station.handoverFrom_kept (st : Station) (n : Address) (c : HandoverContent) :
    (st.handoverFrom n c).kept = st.kept := by
  unfold Station.handoverFrom
  dsimp -failIfUnchanged only
  (repeat' split) <;> first | rfl | simp | (simp; rfl)

@[simp] theorem Station.relabelAll_kept (st : Station) (m : MoverId) (s : Address) :
    (st.relabelAll m s).kept = st.kept := by
  unfold Station.relabelAll
  dsimp only
  rw [Station.kept_foldl _ (fun st x => by simp), Station.kept_foldl _ (fun st x => by simp)]

@[simp] theorem Station.testTaken_kept (st : Station) (m : MoverId) : (st.testTaken m).kept = st.kept := by
  unfold Station.testTaken
  split <;> simp

@[simp] theorem Station.applyTaken_kept (st : Station) (n : Address) (e : Entry) :
    (st.applyTaken n e).kept = st.kept := by
  unfold Station.applyTaken
  simp only [Station.testTaken_kept, Station.recompute_kept, Station.modifyEntry_kept, Station.relabelAll_kept]
  exact Station.kept_foldl _ (fun st x => by simp) _ _

@[simp] theorem Station.takenFrom_kept (st : Station) (n : Address) (m : MoverId) :
    (st.takenFrom n m).kept = st.kept := by
  unfold Station.takenFrom
  dsimp -failIfUnchanged only
  (repeat' split) <;> first | rfl | simp | (simp; rfl)

@[simp] theorem Station.refusedFrom_kept (st : Station) (n : Address) (m : MoverId) (r : HandoverRefusal) :
    (st.refusedFrom n m r).kept = st.kept := by
  unfold Station.refusedFrom
  dsimp -failIfUnchanged only
  (repeat' split) <;> first | rfl | simp | (simp; rfl)

@[simp] theorem Station.trackFrom_kept (st : Station) (n : Address) (m : MoverId) (p : Position) (v d : Int) :
    (st.trackFrom n m p v d).kept = st.kept := by
  unfold Station.trackFrom
  dsimp -failIfUnchanged only
  (repeat' split) <;> first | rfl | simp | (simp; rfl)

@[simp] theorem Station.neighbourDrive_kept (st : Station) (d : Side) (ds : DriveState) :
    (st.neighbourDrive d ds).kept = st.kept := by
  unfold Station.neighbourDrive
  dsimp -failIfUnchanged only
  (repeat' split) <;> first | rfl | simp | (simp; rfl)

@[simp] theorem Station.dropIdleVisitors_kept (st : Station) (n : Address) : (st.dropIdleVisitors n).kept = st.kept :=
  rfl

@[simp] theorem Station.purgeZones_kept (st : Station) (n : Address) :
    (st.purgeZones n).kept = st.kept := by
  unfold Station.purgeZones
  rw [Station.offerEntry_kept, Station.examine_kept, Station.dropIdleVisitors_kept]
  refine Station.kept_foldl _ (fun st x => ?_) _ _
  rw [Station.modifyZone_kept]
  split <;> simp

@[simp] theorem Station.purgeVisitor_kept (st : Station) (n : Address) (m : MoverId) :
    (st.purgeVisitor n m).kept = st.kept := by
  unfold Station.purgeVisitor
  dsimp -failIfUnchanged only
  (repeat' split) <;> first | rfl | simp | (simp; rfl)

@[simp] theorem Station.judgePresent_kept (st : Station) (d : Side) (p : Present) :
    (st.judgePresent d p).kept = st.kept := by
  unfold Station.judgePresent
  dsimp -failIfUnchanged only
  (repeat' split) <;> first | rfl | simp | (simp; rfl)

@[simp] theorem Station.noticeFrom_kept (st : Station) (n : Address) (ds : DriveState) :
    (st.noticeFrom n ds).kept = st.kept := by
  unfold Station.noticeFrom
  dsimp -failIfUnchanged only
  (repeat' split) <;> first | rfl | simp | (simp; rfl)

@[simp] theorem Station.orderFrom_kept (st : Station) (n : Address) (tag : Nat) (m : MoverId) (k : OrderKind) :
    (st.orderFrom n tag m k).kept = st.kept := by
  unfold Station.orderFrom
  dsimp -failIfUnchanged only
  (repeat' split) <;> first | rfl | simp | (simp; rfl)

@[simp] theorem Station.watchTaken_kept (st : Station) (f : RxFrame) (m : MoverId) :
    (st.watchTaken f m).kept = st.kept := by
  unfold Station.watchTaken
  dsimp -failIfUnchanged only
  (repeat' split) <;> first | rfl | simp | (simp; rfl)

@[simp] theorem Station.adopt_kept (st : Station) (m : MoverId) (p : Position) :
    (st.adopt m p).kept = st.kept := by
  unfold Station.adopt
  dsimp only
  rw [Station.kept_foldl _ (fun st x => by simp)]
  rfl

@[simp] theorem Station.forgetRecords_kept (st : Station) (e : Entry) :
    (st.forgetRecords e).kept = st.kept := by
  unfold Station.forgetRecords
  rw [Station.eraseEntry_kept]
  split
  · rw [Station.mapZones_kept]
    exact Station.kept_foldl _ (fun st x => by simp) _ _
  · exact Station.kept_foldl _ (fun st x => by simp) _ _

@[simp] theorem Station.forget_kept (st : Station) (e : Entry) :
    (st.forget e).kept = st.kept := by
  unfold Station.forget
  simp only [Station.offerEntry_kept, Station.examine_kept, Station.forgetRecords_kept]
  exact Station.kept_foldl _ (fun st x => by simp) _ _

@[simp] theorem Station.blockZone_kept (st : Station) (k : Nat) (claims : List WaitClaim) :
    (st.blockZone k claims).kept = st.kept := by
  unfold Station.blockZone
  dsimp only
  rw [Station.kept_foldl _ (fun st x => by simp), Station.kept_foldl _ (fun st x => by simp), Station.modifyZone_kept]

@[simp] theorem Station.loseOwned_kept (st : Station) (e : Entry) :
    (st.loseOwned e).kept = st.kept := by
  unfold Station.loseOwned
  dsimp -failIfUnchanged only
  (repeat' split) <;> first | rfl | simp | (simp; rfl)

@[simp] theorem Station.loseStray_kept (st : Station) (e : Entry) :
    (st.loseStray e).kept = st.kept := by
  unfold Station.loseStray
  dsimp -failIfUnchanged only
  (repeat' split) <;> first | rfl | simp | (simp; rfl)

@[simp] theorem Station.loseMover_kept (st : Station) (m : MoverId) :
    (st.loseMover m).kept = st.kept := by
  unfold Station.loseMover
  dsimp -failIfUnchanged only
  (repeat' split) <;> first | rfl | simp | (simp; rfl)

@[simp] theorem Station.loseAll_kept (st : Station) (sighted : List MoverId) :
    (st.loseAll sighted).kept = st.kept := by
  unfold Station.loseAll
  refine Station.kept_foldl _ (fun st x => ?_) _ _
  (repeat' split) <;> simp

@[simp] theorem Station.loseTimes_kept (st : Station) (x0 : Nat) :
    (st.loseTimes x0).kept = st.kept := by
  induction x0 generalizing st with
  | zero => rfl
  | succ n ih => rw [Station.loseTimes, ih, Station.loseAll_kept]

@[simp] theorem Station.claimFailed_kept (st : Station) (m : MoverId) (g : ZoneNo) :
    (st.claimFailed m g).kept = st.kept := by
  unfold Station.claimFailed
  dsimp -failIfUnchanged only
  (repeat' split) <;> first | rfl | simp | (simp; rfl)

end Sys2Proof.Machine
end

