-- ==== Sys2Proof/Laws/Table.lean ====
section
/-! SUPPORT. The Mover Table and the wait lists stay as R5 and R21 say (`Station.Tabled`) under every shared operation: one
lemma per operation, which a proof cites instead of unfolding it. -/

namespace Sys2Proof.Machine

open Sys2Proof.Config

/-! ## The named accesses -/

/-- Stations with the same movers and zones are tabled together. -/
theorem Station.Tabled.same {st st' : Station} (h : st.Tabled) (hm : st'.movers = st.movers) (hz : st'.zones = st.zones) :
    st'.Tabled :=
  ⟨hm ▸ h.ascending, hm ▸ h.size, hz ▸ h.zones⟩

/-- An entry put in its place leaves every other ID where it was. -/
theorem mem_movers_insertEntry (e : Entry) (es : List Entry) (m : MoverId)
    (h : m ∈ (insertEntry e es).map Entry.id) : m = e.id ∨ m ∈ es.map Entry.id := by
  induction es with
  | nil => simpa [insertEntry] using h
  | cons x xs ih =>
    simp only [insertEntry] at h
    split at h
    · simpa using h
    · split at h
      · simp only [List.map_cons, List.mem_cons] at h ⊢
        rcases h with h | h
        · exact .inl h
        · exact .inr (.inr h)
      · simp only [List.map_cons, List.mem_cons] at h ⊢
        rcases h with h | h
        · exact .inr (.inl h)
        · rcases ih h with h | h
          · exact .inl h
          · exact .inr (.inr h)

/-- Ascending IDs stay ascending when an entry is put in its place. -/
theorem ascending_insertEntry (e : Entry) (es : List Entry) (h : (es.map Entry.id).Pairwise (· < ·)) :
    ((insertEntry e es).map Entry.id).Pairwise (· < ·) := by
  induction es with
  | nil => simp [insertEntry]
  | cons x xs ih =>
    simp only [List.map_cons, List.pairwise_cons] at h
    simp only [insertEntry]
    split
    · rename_i hlt
      simp only [List.map_cons, List.pairwise_cons, List.mem_cons]
      refine ⟨fun m hm => ?_, h.1, h.2⟩
      rcases hm with rfl | hm
      · exact hlt
      · exact Nat.lt_trans hlt (h.1 m hm)
    · split
      · rename_i heq
        simp only [List.map_cons, List.pairwise_cons]
        exact ⟨fun m hm => heq ▸ h.1 m hm, h.2⟩
      · rename_i hlt hne
        simp only [List.map_cons, List.pairwise_cons]
        refine ⟨fun m hm => ?_, ih h.2⟩
        rcases mem_movers_insertEntry e xs m hm with rfl | hm
        · exact Nat.lt_of_le_of_ne (Nat.le_of_not_lt hlt) (Ne.symm hne)
        · exact h.1 m hm

/-- An entry put in its place makes the table at most one longer, and no longer when its mover had one. -/
theorem length_insertEntry (e : Entry) (es : List Entry) : (insertEntry e es).length ≤ es.length + 1 := by
  induction es with
  | nil => simp [insertEntry]
  | cons x xs ih => simp only [insertEntry]; split <;> (try split) <;> simp only [List.length_cons] <;> omega

theorem length_insertEntry_of_mem (e : Entry) (es : List Entry) (h : (es.map Entry.id).Pairwise (· < ·))
    (hm : e.id ∈ es.map Entry.id) : (insertEntry e es).length = es.length := by
  induction es with
  | nil => simp at hm
  | cons x xs ih =>
    simp only [List.map_cons, List.pairwise_cons, List.mem_cons] at h hm
    simp only [insertEntry]
    split
    · rename_i hlt
      rcases hm with hm | hm
      · exact absurd hlt (by rw [hm]; exact Nat.lt_irrefl _)
      · exact absurd (Nat.lt_trans hlt (h.1 _ hm)) (Nat.lt_irrefl _)
    · split
      · simp
      · rename_i hne
        rcases hm with hm | hm
        · exact absurd hm hne
        · simp [ih h.2 hm]

/-- The mover has an entry exactly when its ID stands in the table. -/
theorem Station.entry?_isSome (st : Station) (m : MoverId) : (st.entry? m).isSome ↔ m ∈ st.movers := by
  simp [Station.entry?, Station.movers, List.find?_isSome]

theorem Station.entry?_id {st : Station} {m : MoverId} {e : Entry} (h : st.entry? m = some e) : e.id = m := by
  simpa using List.find?_some h

theorem Station.tabled_putEntry {st : Station} {e : Entry} (h : st.Tabled)
    (he : (st.entry? e.id).isSome ∨ st.tableFull = false) : (st.putEntry e).Tabled := by
  refine ⟨ascending_insertEntry e _ h.ascending, ?_, h.zones⟩
  simp only [Station.putEntry, Station.movers, List.length_map]
  rcases he with he | he
  · rw [length_insertEntry_of_mem e _ h.ascending ((st.entry?_isSome _).1 he)]
    simpa [Station.movers] using h.size
  · have := length_insertEntry e st.entries
    simp [Station.tableFull] at he
    omega

/-- The movers stay when an entry is changed under its own ID. -/
theorem Station.movers_modifyEntry {st : Station} {m : MoverId} {f : Entry → Entry}
    (hf : ∀ e : Entry, e.id = m → (f e).id = m) : (st.modifyEntry m f).movers = st.movers := by
  simp only [Station.modifyEntry, Station.movers, List.map_map]
  refine List.map_congr_left fun e _ => ?_
  by_cases h : e.id = m
  · simp [h, hf e h]
  · simp [h]

@[simp] theorem Station.tabled_modifyEntry {st : Station} {m : MoverId} {f : Entry → Entry} (h : st.Tabled)
    (hf : ∀ e : Entry, e.id = m → (f e).id = m) : (st.modifyEntry m f).Tabled :=
  h.same (Station.movers_modifyEntry hf) rfl

@[simp] theorem Station.tabled_eraseEntry {st : Station} {m : MoverId} (h : st.Tabled) : (st.eraseEntry m).Tabled := by
  have hs : (st.eraseEntry m).movers.Sublist st.movers := List.Sublist.map _ List.filter_sublist
  exact ⟨h.ascending.sublist hs, Nat.le_trans hs.length_le h.size, h.zones⟩

@[simp] theorem Station.tabled_modifyZone {st : Station} {k : Nat} {f : Zone → Zone} (h : st.Tabled)
    (hf : ∀ z : Zone, st.zones[k]? = some z → z.Tidy → (f z).Tidy) : (st.modifyZone k f).Tabled := by
  refine ⟨h.ascending, h.size, fun z hz => ?_⟩
  simp only [Station.modifyZone, List.mem_iff_getElem?, List.getElem?_modify] at hz
  obtain ⟨i, hi⟩ := hz
  by_cases hk : k = i
  · subst hk
    cases hj : st.zones[k]? with
    | none => simp [hj] at hi
    | some z' =>
      simp [hj] at hi
      exact hi ▸ hf z' hj (h.zones z' (List.mem_of_getElem? hj))
  · simp [hk] at hi
    exact h.zones z (List.mem_of_getElem? hi)

/-- A zone that no one holds is tidy with a part of its wait list. -/
theorem Zone.Tidy.part {z z' : Zone} (h : z.Tidy) (hw : z'.waiting.Sublist z.waiting)
    (hs : ∀ m, z'.state.heldBy m = true → z.state.heldBy m = true) : z'.Tidy := by
  refine ⟨Nat.le_trans hw.length_le h.size, h.oneEach.sublist (hw.map _), fun c hc => ?_⟩
  have := h.notHolder c (hw.subset hc)
  by_cases hb : z'.state.heldBy c.mover = true
  · rw [hs _ hb] at this; cases this
  · simpa using hb

/-- What a fold of operations keeps tabled when each of them does. -/
theorem Station.tabled_foldl {α : Type} (f : Station → α → Station) (hf : ∀ st x, st.Tabled → (f st x).Tabled)
    (xs : List α) (st : Station) (h : st.Tabled) : (xs.foldl f st).Tabled := by
  induction xs generalizing st with
  | nil => exact h
  | cons x xs ih => exact ih _ (hf _ _ h)

/-! ## Operations that leave movers and zones as they are -/

@[simp] theorem Station.tabled_bump {st : Station} (h : st.Tabled) : st.bump.Tabled := h.same rfl rfl
@[simp] theorem Station.tabled_report {st : Station} {b : ReportBody} (h : st.Tabled) : (st.report b).Tabled :=
  h.same rfl rfl
@[simp] theorem Station.tabled_raisedAgain {st : Station} {p : Nat} (h : st.Tabled) : (st.raisedAgain p).Tabled :=
  h.same rfl rfl
@[simp] theorem Station.tabled_setSide {st : Station} {d : Side} {r : SideRecord} (h : st.Tabled) :
    (st.setSide d r).Tabled := by
  cases d <;> exact h.same rfl rfl
@[simp] theorem Station.tabled_placeSend {st : Station} {n : Address} {f : Frame} (h : st.Tabled) :
    (st.placeSend n f).Tabled := by
  unfold Station.placeSend; split
  · exact h
  · exact h.same rfl rfl
@[simp] theorem Station.tabled_recompute {st : Station} {m : MoverId} (h : st.Tabled) : (st.recompute m).Tabled :=
  h.same rfl rfl
@[simp] theorem Station.tabled_unassignCoil {st : Station} {k : Nat} (h : st.Tabled) : (st.unassignCoil k).Tabled :=
  h.same rfl rfl
@[simp] theorem Station.tabled_writeDemand {st : Station} {m : MoverId} {d : Int} (h : st.Tabled) :
    (st.writeDemand m d).Tabled := by simp [Station.writeDemand, h]
@[simp] theorem Station.tabled_refreshOutputs {st : Station} (h : st.Tabled) : st.refreshOutputs.Tabled :=
  h.same rfl rfl
@[simp] theorem Station.tabled_countLink {st : Station} {f : LinkCounters → LinkCounters} (h : st.Tabled) :
    (st.countLink f).Tabled := h.same rfl rfl
@[simp] theorem Station.tabled_receiveError {st : Station} (h : st.Tabled) : st.receiveError.Tabled := h.same rfl rfl
@[simp] theorem Station.tabled_foreignFrame {st : Station} (h : st.Tabled) : st.foreignFrame.Tabled := h.same rfl rfl
@[simp] theorem Station.tabled_countSighting {st : Station} {f : SightingCounters → SightingCounters}
    (h : st.Tabled) : (st.countSighting f).Tabled := h.same rfl rfl
@[simp] theorem Entry.setReleaseDue_id (e : Entry) (d : Side) (r : Option ReleaseDue) : (e.setReleaseDue d r).id = e.id := by
  cases d <;> rfl

@[simp] theorem Entry.filterRemote_id (e : Entry) (p : ZoneNo → Bool) : (e.filterRemote p).id = e.id := rfl

@[simp] theorem Entry.addRemote_id (e : Entry) (d : Side) (g : ZoneNo) : (e.addRemote d g).id = e.id := by cases d <;> rfl

@[simp] theorem Entry.remoteToward_filterRemote (e : Entry) (p : ZoneNo → Bool) (d : Side) :
    (e.filterRemote p).remoteToward d = (e.remoteToward d).filter p := by cases d <;> rfl

@[simp] theorem Entry.remoteToward_addRemote (e : Entry) (d d' : Side) (g : ZoneNo) :
    (e.addRemote d g).remoteToward d' = if d' = d then insertZone g (e.remoteToward d') else e.remoteToward d' := by
  cases d <;> cases d' <;> rfl

/-- The remote holdings are those of both lists. -/
theorem Entry.mem_remote (e : Entry) (g : ZoneNo) : g ∈ e.remote ↔ ∃ d : Side, g ∈ e.remoteToward d := by
  simp only [Entry.remote, List.mem_append]
  exact ⟨fun h => h.elim (fun h => ⟨.lower, h⟩) fun h => ⟨.upper, h⟩, fun ⟨d, h⟩ => by cases d <;> simp_all [Entry.remoteToward]⟩

@[simp] theorem Station.tabled_oweRelease {st : Station} {m : MoverId} {d : Side} {zs : List ZoneNo} (h : st.Tabled) :
    (st.oweRelease m d zs).Tabled := by
  unfold Station.oweRelease
  (repeat' split) <;> simp [h]

/-! ## The arbiter -/

@[simp] theorem Station.tabled_freeZone {st : Station} {k : Nat} (h : st.Tabled) : (st.freeZone k).Tabled := by
  unfold Station.freeZone
  refine Station.tabled_unassignCoil (Station.tabled_modifyZone h fun z _ hz => ?_)
  exact hz.part (List.Sublist.refl _) (by simp [ZoneState.heldBy])

theorem Station.tabled_makeVisitor {st : Station} {m : MoverId} {n : Address} (h : st.Tabled)
    (hm : (st.entry? m).isSome ∨ st.tableFull = false) : (st.makeVisitor m n).Tabled :=
  Station.tabled_putEntry h hm

/-- A zone becomes held by a mover that has no claim in its list; an entry claim finds its entry or a free one. -/
theorem Station.tabled_grantZone {st : Station} {k : Nat} {m : MoverId} {n : Address} {cls : ClaimClass} (h : st.Tabled)
    (hw : ∀ z, st.zones[k]? = some z → ∀ c ∈ z.waiting, c.mover ≠ m)
    (hm : cls = .entry → (st.entry? m).isSome ∨ st.tableFull = false) : (st.grantZone k m n cls).Tabled := by
  have key : ∀ d : Option Due, (st.modifyZone k fun z => { z with state := .held m n, grantOwed := d }).Tabled := by
    intro d
    refine Station.tabled_modifyZone h fun z hz ht => ⟨ht.size, ht.oneEach, fun c hc => ?_⟩
    have := hw z hz c hc
    simp [ZoneState.heldBy, Ne.symm this]
  unfold Station.grantZone
  dsimp only
  by_cases hn : n = st.own
  · rw [if_pos hn]
    split
    · rename_i hc
      exact Station.tabled_makeVisitor (key _) (hm hc)
    · exact key _
  · rw [if_neg hn]
    split
    · rename_i hc
      exact Station.tabled_makeVisitor (Station.tabled_bump (key _)) (hm hc)
    · exact Station.tabled_bump (key _)

@[simp] theorem Station.tabled_denyClaim {st : Station} {m : MoverId} {g : ZoneNo} {r : DenialReason} (h : st.Tabled) :
    (st.denyClaim m g r).Tabled := by simp [Station.denyClaim, h]

@[simp] theorem Station.tabled_popHead {st : Station} {k : Nat} (h : st.Tabled) : (st.popHead k).Tabled :=
  Station.tabled_modifyZone h fun z _ hz => hz.part (List.tail_sublist _) (by simp)

/-- The head of a list is the only claim of its mover in it (R21). -/
theorem Station.popHead_waiting {st : Station} {k : Nat} {c : WaitClaim} (h : st.Tabled) (hc : st.freeHead? k = some c) :
    ∀ z, (st.popHead k).zones[k]? = some z → ∀ c' ∈ z.waiting, c'.mover ≠ c.mover := by
  intro z hz c' hc'
  simp only [Station.freeHead?, Station.zone?] at hc
  cases hk : st.zones[k]? with
  | none => simp [hk] at hc
  | some w =>
    simp only [hk, Option.bind_some] at hc
    split at hc
    · have ht := (h.zones w (List.mem_of_getElem? hk)).oneEach
      simp only [Station.popHead, Station.modifyZone, List.getElem?_modify, hk, if_true, Option.map_eq_map, Option.map_some,
        Option.some.injEq] at hz
      subst hz
      cases hl : w.waiting with
      | nil => simp [hl] at hc
      | cons x xs =>
        simp only [hl, List.head?_cons, Option.some.injEq] at hc
        subst hc
        simp only [hl, List.map_cons, List.nodup_cons, List.mem_map, not_exists, not_and] at ht
        simp only [hl, List.tail_cons] at hc'
        exact ht.1 c' hc'
    · cases hc

theorem Station.tabled_grantHead {st : Station} {k : Nat} {c : WaitClaim} {cls : ClaimClass} (h : st.Tabled)
    (hc : st.freeHead? k = some c) (hm : cls = .entry → (st.entry? c.mover).isSome ∨ st.tableFull = false) :
    (st.grantHead k c cls).Tabled := by
  have := Station.tabled_grantZone (n := c.station) (Station.tabled_popHead (k := k) h)
    (Station.popHead_waiting h hc) hm
  unfold Station.grantHead
  dsimp only
  split <;> simp [this]

@[simp] theorem Station.tabled_tellDenied {st : Station} {k : Nat} {c : WaitClaim} {r : DenialReason} (h : st.Tabled) :
    (st.tellDenied k c r).Tabled := by
  unfold Station.tellDenied
  split <;> simp [h]

/-- What a granted head's class says of the table (R29). -/
theorem Station.headVerdict_granted {st : Station} {k : Nat} {c : WaitClaim} {cls : ClaimClass}
    (h : st.headVerdict k c = .granted cls) (he : cls = .entry) :
    (st.entry? c.mover).isSome ∨ st.tableFull = false := by
  subst he
  simp only [Station.headVerdict] at h
  generalize (if c.station = st.own then ClaimClass.ordinary else _) = cls at h
  split at h
  · cases h
  · split at h
    · cases h
    · split at h
      · cases h
      · rename_i hn
        simp only [HeadVerdict.granted.injEq] at h
        simp only [Station.needsEntry, h] at hn
        cases hs : st.entry? c.mover with
        | some e => exact .inl rfl
        | none => right; simpa [hs] using hn

/-- What a look examines is the head of a FREE zone. -/
theorem Station.freeHead_of_lookedAt {st : Station} {l : Look} {c : WaitClaim} (h : st.lookedAt l = some c) :
    st.freeHead? l.zone = some c := by
  unfold Station.lookedAt at h
  split at h
  · exact absurd h (by simp)
  · exact h

@[simp] theorem Station.tabled_examineLoop {fuel : Nat} {ls : List Look} {st : Station} (h : st.Tabled) :
    (Station.examineLoop fuel ls st).Tabled := by
  induction fuel generalizing ls st with
  | zero => simpa [Station.examineLoop] using h
  | succ n ih =>
    cases ls with
    | nil => simpa [Station.examineLoop] using h
    | cons l ls =>
      simp only [Station.examineLoop]
      split
      · exact ih h
      · rename_i c hl
        have hc := Station.freeHead_of_lookedAt hl
        split
        · exact ih h
        · rename_i cls hv
          exact ih (Station.tabled_grantHead h hc (Station.headVerdict_granted hv))
        · split
          · exact ih (Station.tabled_eraseEntry (Station.tabled_tellDenied (Station.tabled_popHead h)))
          · exact ih (Station.tabled_tellDenied (Station.tabled_popHead h))

@[simp] theorem Station.tabled_examineAll {st : Station} {ls : List Look} (h : st.Tabled) : (st.examineAll ls).Tabled := by
  simp [Station.examineAll, h]

@[simp] theorem Station.tabled_examine {st : Station} {ks : List Nat} (h : st.Tabled) : (st.examine ks).Tabled := by
  simp [Station.examine, h]

/-- Claims that go leave the others tidy. -/
theorem Zone.Tidy.filter {z : Zone} (h : z.Tidy) (p : WaitClaim → Bool) :
    ({ z with waiting := z.waiting.filter p } : Zone).Tidy :=
  h.part List.filter_sublist fun _ hb => hb

/-- A claim joins a list in which its mover has none and whose zone its mover does not hold, while there is room. -/
theorem Station.tabled_queueClaim {st : Station} {k : Nat} {m : MoverId} {n : Address} {cls : ClaimClass} (h : st.Tabled)
    (hz : ∀ z, st.zones[k]? = some z → z.waiting.length < waitListSize ∧ z.state.heldBy m = false ∧
      ∀ c ∈ z.waiting, c.mover ≠ m) : (st.queueClaim k m n cls).Tabled := by
  have key : ∀ c : WaitClaim, c.mover = m → (st.modifyZone k fun z => { z with waiting := z.waiting ++ [c] }).Tabled := by
    intro c hc
    refine Station.tabled_modifyZone h fun z hk ht => ?_
    obtain ⟨hl, hb, hw⟩ := hz z hk
    refine ⟨by simp only [List.length_append, List.length_singleton]; omega, ?_, fun c' hc' => ?_⟩
    · simp only [List.map_append, List.map_cons, List.map_nil]
      refine List.nodup_append.2 ⟨ht.oneEach, by simp, fun a ha b hb' => ?_⟩
      obtain ⟨c', hc', rfl⟩ := List.mem_map.1 ha
      simp only [List.mem_singleton] at hb'
      rw [hb', hc]
      exact hw c' hc'
    · rcases List.mem_append.1 hc' with hc' | hc'
      · exact ht.notHolder c' hc'
      · simp only [List.mem_singleton] at hc'
        rw [hc', hc]; exact hb
  unfold Station.queueClaim
  dsimp only
  split
  · exact Station.tabled_bump (key _ rfl)
  · exact key _ rfl

/-- What test 9 of R23 says of the zone it is reached for. -/
theorem Station.claimVerdict_isNew {st : Station} {m : MoverId} {g : ZoneNo} {conflict : Bool} {k : Nat}
    (h : st.claimVerdict m g conflict = .isNew) (hk : st.localIndex g = some k) :
    st.holds m k = false ∧ st.claims m k = false := by
  simp only [Station.claimVerdict, hk] at h
  (repeat' split at h) <;> first | cases h | skip
  rename_i hh _ hp _ _ _
  refine ⟨by simpa using hh, ?_⟩
  simp only [Station.placeOf] at hp
  simp only [Station.claims]
  cases hz : st.zone? k with
  | none => rfl
  | some z =>
    simp only [hz, Option.bind_some, Option.map_eq_none_iff, List.findIdx?_eq_none_iff] at hp
    simp only [Option.any_some, List.any_eq_false]
    intro c hc
    simpa using hp c hc

theorem Station.tabled_admitClaim {st : Station} {k : Nat} {m : MoverId} {n : Address} {cls : ClaimClass} (h : st.Tabled)
    (hh : st.holds m k = false) (hw : st.claims m k = false) : (st.admitClaim k m n cls).Tabled := by
  have hz : ∀ z, st.zones[k]? = some z → z.state.heldBy m = false ∧ ∀ c ∈ z.waiting, c.mover ≠ m := by
    intro z hz
    simp only [Station.holds, Station.zone?, hz, Option.any_some] at hh
    simp only [Station.claims, Station.zone?, hz, Option.any_some, List.any_eq_false] at hw
    exact ⟨hh, fun c hc => by simpa using hw c hc⟩
  unfold Station.admitClaim Station.admission
  cases hk : st.zone? k with
  | none => exact h
  | some z =>
    dsimp only
    by_cases hg : z.state = .free ∧ z.waiting = [] ∧ ¬ st.needsEntry m cls
    · rw [if_pos hg]
      refine Station.tabled_grantZone h (fun z hz' => (hz z hz').2) fun hc => ?_
      have := hg.2.2
      subst hc
      cases hs : st.entry? m with
      | some e => exact .inl rfl
      | none => right; simpa [Station.needsEntry, hs] using this
    · rw [if_neg hg]
      by_cases hl : z.waiting.length < waitListSize
      · rw [if_pos hl]
        refine Station.tabled_queueClaim h fun z' hz' => ?_
        have : z' = z := by simpa [Station.zone?, hz'] using hk
        exact ⟨this ▸ hl, (hz z' hz').1, (hz z' hz').2⟩
      · rw [if_neg hl]; exact h

@[simp] theorem Station.tabled_claimOwn {st : Station} {m : MoverId} {g : ZoneNo} (h : st.Tabled) :
    (st.claimOwn m g).Tabled := by
  unfold Station.claimOwn
  cases hv : st.claimVerdict m g false with
  | denied r => simp [h]
  | grantAgain => simpa using h
  | queuedAgain p => simp [h]
  | isNew =>
    cases hk : st.localIndex g with
    | none => simpa using h
    | some k =>
      obtain ⟨hh, hw⟩ := Station.claimVerdict_isNew hv hk
      dsimp only
      split <;> simp [Station.tabled_admitClaim h hh hw]

@[simp] theorem Station.tabled_claimFrom {st : Station} {n : Address} {m : MoverId} {g : ZoneNo} {f : Bool}
    (h : st.Tabled) : (st.claimFrom n m g f).Tabled := by
  unfold Station.claimFrom
  dsimp only
  cases hv : st.claimVerdict m g (st.claimClass m n f = .conflict) with
  | denied r => simp [h]
  | grantAgain => simp [h]
  | queuedAgain p => simp [h]
  | isNew =>
    cases hk : st.localIndex g with
    | none => simpa using h
    | some k =>
      obtain ⟨hh, hw⟩ := Station.claimVerdict_isNew hv hk
      dsimp only
      split <;> first | exact Station.tabled_admitClaim h hh hw | simp [h]

@[simp] theorem Entry.fault_id (e : Entry) (c : FaultCause) : (e.fault c).id = e.id := rfl

/-! ## Everything built on them -/

@[simp] theorem Station.tabled_offerEntry {st : Station} (ht : st.Tabled) :
    (st.offerEntry).Tabled := by
  unfold Station.offerEntry
  dsimp -failIfUnchanged only
  (repeat' split) <;> first | exact ht | simp (maxDischargeDepth := 20) [ht] | simp_all

@[simp] theorem Station.tabled_freeEntry {st : Station} {m : MoverId} (ht : st.Tabled) :
    (st.freeEntry m).Tabled := by
  unfold Station.freeEntry
  dsimp -failIfUnchanged only
  (repeat' split) <;> first | exact ht | simp (maxDischargeDepth := 20) [ht] | simp_all

@[simp] theorem Station.tabled_testVisitor {st : Station} {m : MoverId} (ht : st.Tabled) :
    (st.testVisitor m).Tabled := by
  unfold Station.testVisitor
  dsimp -failIfUnchanged only
  (repeat' split) <;> first | exact ht | simp (maxDischargeDepth := 20) [ht] | simp_all

@[simp] theorem Station.tabled_releaseZone {st : Station} {k : Nat} (ht : st.Tabled) :
    (st.releaseZone k).Tabled := by
  unfold Station.releaseZone
  dsimp -failIfUnchanged only
  (repeat' split) <;> first | exact ht | simp (maxDischargeDepth := 20) [ht] | simp_all

@[simp] theorem Station.tabled_releaseOwn {st : Station} {m : MoverId} {ks : List Nat} (ht : st.Tabled) :
    (st.releaseOwn m ks).Tabled := by
  unfold Station.releaseOwn
  refine Station.tabled_foldl _ (fun st x ht => ?_) _ _ ht
  dsimp -failIfUnchanged only
  (repeat' split) <;> simp (maxDischargeDepth := 20) [ht]

@[simp] theorem Station.tabled_unlistClaim {st : Station} {k : Nat} {m : MoverId} (ht : st.Tabled) :
    (st.unlistClaim k m).Tabled :=
  Station.tabled_modifyZone ht fun _ _ hz => hz.filter fun c => c.mover ≠ m

@[simp] theorem Station.tabled_dropClaim {st : Station} {k : Nat} {m : MoverId} (ht : st.Tabled) :
    (st.dropClaim k m).Tabled := by
  unfold Station.dropClaim
  split <;> simp (maxDischargeDepth := 20) only [ht, Station.tabled_unlistClaim, Station.tabled_examine]

@[simp] theorem Station.tabled_removeClaim {st : Station} {k : Nat} {m : MoverId} (ht : st.Tabled) :
    (st.removeClaim k m).Tabled := by
  unfold Station.removeClaim
  dsimp -failIfUnchanged only
  (repeat' split) <;> first | exact ht | simp (maxDischargeDepth := 20) [ht] | simp_all

/-- Every zone changed by what leaves it tidy. -/
theorem Station.tabled_mapZones {st : Station} {f : Zone → Zone} (h : st.Tabled) (hf : ∀ z : Zone, z.Tidy → (f z).Tidy) :
    ({ st with zones := st.zones.map f } : Station).Tabled := by
  refine ⟨h.ascending, h.size, fun z hz => ?_⟩
  obtain ⟨z', hz', rfl⟩ := List.mem_map.1 hz
  exact hf z' (h.zones z' hz')

/-- Some entries gone. -/
theorem Station.tabled_filterEntries {st : Station} {p : Entry → Bool} (h : st.Tabled) :
    ({ st with entries := st.entries.filter p } : Station).Tabled := by
  have hs : (({ st with entries := st.entries.filter p } : Station).movers).Sublist st.movers :=
    List.Sublist.map _ List.filter_sublist
  exact ⟨h.ascending.sublist hs, Nat.le_trans hs.length_le h.size, h.zones⟩

@[simp] theorem Station.tabled_denyRemoteClaims {st : Station} (ht : st.Tabled) :
    (st.denyRemoteClaims).Tabled := by
  unfold Station.denyRemoteClaims
  refine Station.tabled_foldl _ (fun st p ht => Station.tabled_testVisitor ht) _ _
    (Station.tabled_foldl _ (fun st p ht => Station.tabled_tellDenied ht) _ _ ?_)
  exact Station.tabled_mapZones ht fun z hz => hz.filter fun c => c.station = st.own

@[simp] theorem Station.tabled_claimRemote {st : Station} {m : MoverId} {g : ZoneNo} (ht : st.Tabled) :
    (st.claimRemote m g).Tabled := by
  unfold Station.claimRemote
  dsimp -failIfUnchanged only
  (repeat' split) <;> first | exact ht | simp (maxDischargeDepth := 20) [ht] | simp_all

@[simp] theorem Station.tabled_oweCancel {st : Station} {m : MoverId} {g : ZoneNo} (ht : st.Tabled) :
    (st.oweCancel m g).Tabled := by
  unfold Station.oweCancel
  dsimp -failIfUnchanged only
  (repeat' split) <;> first | exact ht | simp (maxDischargeDepth := 20) [ht] | simp_all

@[simp] theorem Station.tabled_giveUpClaim {st : Station} {m : MoverId} (ht : st.Tabled) :
    (st.giveUpClaim m).Tabled := by
  unfold Station.giveUpClaim
  dsimp -failIfUnchanged only
  (repeat' split) <;> first | exact ht | simp (maxDischargeDepth := 20) [ht] | simp_all

@[simp] theorem Station.tabled_releaseRemote {st : Station} {m : MoverId} {gs : List ZoneNo} (ht : st.Tabled) :
    (st.releaseRemote m gs).Tabled :=
  Station.tabled_oweRelease (Station.tabled_oweRelease (Station.tabled_modifyEntry ht fun e he => by simpa using he))

@[simp] theorem Station.tabled_releaseUntouched {st : Station} {m : MoverId} {p : Position} (ht : st.Tabled) :
    (st.releaseUntouched m p).Tabled := by
  unfold Station.releaseUntouched
  dsimp -failIfUnchanged only
  (repeat' split) <;> first | exact ht | simp (maxDischargeDepth := 20) [ht] | simp_all

@[simp] theorem Station.tabled_endMove {st : Station} {m : MoverId} (ht : st.Tabled) :
    (st.endMove m).Tabled := by
  unfold Station.endMove
  dsimp -failIfUnchanged only
  (repeat' split) <;> first | exact ht | simp (maxDischargeDepth := 20) [ht] | simp_all

@[simp] theorem Station.tabled_faulted {st : Station} {e : Entry} {cause : FaultCause} {refusal : Option HandoverRefusal}
    (ht : st.Tabled) : (st.faulted e cause refusal).Tabled :=
  Station.tabled_report (Station.tabled_writeDemand (Station.tabled_modifyEntry ht fun _ he => he))

@[simp] theorem Station.tabled_enterFault {st : Station} {m : MoverId} {cause : FaultCause} {refusal : Option HandoverRefusal} (ht : st.Tabled) :
    (st.enterFault m cause refusal).Tabled := by
  unfold Station.enterFault
  split
  · exact ht
  · split
    · exact ht
    · refine Station.tabled_faulted ?_
      (repeat' split) <;> first | exact ht | simp [ht]

@[simp] theorem Station.tabled_faultEach {st : Station} {ms : List MoverId} {p : Entry → Bool} {cause : FaultCause} (ht : st.Tabled) :
    (st.faultEach ms p cause).Tabled := by
  unfold Station.faultEach
  refine Station.tabled_foldl _ (fun st x ht => ?_) _ _ ht
  dsimp -failIfUnchanged only
  (repeat' split) <;> simp (maxDischargeDepth := 20) [ht]

@[simp] theorem Station.tabled_endHandover {st : Station} {m : MoverId} {cause : FaultCause} {refusal : Option HandoverRefusal} (ht : st.Tabled) :
    (st.endHandover m cause refusal).Tabled := by
  unfold Station.endHandover
  dsimp -failIfUnchanged only
  (repeat' split) <;> first | exact ht | simp (maxDischargeDepth := 20) [ht] | simp_all

@[simp] theorem Station.tabled_closeSide {st : Station} {d : Side} {r : ClosedReason} (ht : st.Tabled) :
    (st.closeSide d r).Tabled := by
  unfold Station.closeSide
  dsimp -failIfUnchanged only
  (repeat' split) <;> first | exact ht | simp (maxDischargeDepth := 20) [ht] | simp_all

@[simp] theorem Station.tabled_openSide {st : Station} {d : Side} (ht : st.Tabled) :
    (st.openSide d).Tabled := by
  unfold Station.openSide
  dsimp -failIfUnchanged only
  (repeat' split) <;> first | exact ht | simp (maxDischargeDepth := 20) [ht] | simp_all

@[simp] theorem Station.tabled_owePresent {st : Station} {d : Side} {wanted : Bool} (ht : st.Tabled) :
    (st.owePresent d wanted).Tabled := by
  unfold Station.owePresent
  dsimp only
  split
  · simp [ht]
  · split <;> simp [ht]

@[simp] theorem Station.tabled_oweNotice {st : Station} (ht : st.Tabled) :
    (st.oweNotice).Tabled := by
  unfold Station.oweNotice
  split
  · exact ht.same rfl rfl
  · simp [ht]

@[simp] theorem Station.tabled_applyMove {st : Station} {m : MoverId} {r : MoveRecord} (ht : st.Tabled) :
    (st.applyMove m r).Tabled := by
  unfold Station.applyMove
  dsimp -failIfUnchanged only
  (repeat' split) <;> first | exact ht | simp (maxDischargeDepth := 20) [ht] | simp_all

@[simp] theorem Station.tabled_applyAbort {st : Station} {m : MoverId} (ht : st.Tabled) :
    (st.applyAbort m).Tabled := by
  unfold Station.applyAbort
  dsimp -failIfUnchanged only
  (repeat' split) <;> first | exact ht | simp (maxDischargeDepth := 20) [ht] | simp_all

@[simp] theorem Station.tabled_applyClear {st : Station} {m : MoverId} (ht : st.Tabled) :
    (st.applyClear m).Tabled := by
  unfold Station.applyClear
  dsimp -failIfUnchanged only
  (repeat' split) <;> first | exact ht | simp (maxDischargeDepth := 20) [ht] | simp_all

@[simp] theorem Station.tabled_applyKind {st : Station} {m : MoverId} {x0 : OrderKind} (ht : st.Tabled) :
    (st.applyKind m x0).Tabled := by
  unfold Station.applyKind
  dsimp -failIfUnchanged only
  (repeat' split) <;> first | exact ht | simp (maxDischargeDepth := 20) [ht] | simp_all

@[simp] theorem Station.tabled_applyOrder {st : Station} {e : Entry} {k : OrderKind} (ht : st.Tabled) :
    (st.applyOrder e k).Tabled := by
  unfold Station.applyOrder
  dsimp -failIfUnchanged only
  (repeat' split) <;> first | exact ht | simp (maxDischargeDepth := 20) [ht] | simp_all

@[simp] theorem Station.tabled_claimTimedOut {st : Station} {m : MoverId} {c : Claim} (ht : st.Tabled) :
    (st.claimTimedOut m c).Tabled := by
  unfold Station.claimTimedOut
  dsimp -failIfUnchanged only
  (repeat' split) <;> first | exact ht | simp (maxDischargeDepth := 20) [ht] | simp_all

@[simp] theorem Station.tabled_claimTimer {st : Station} {m : MoverId} (ht : st.Tabled) :
    (st.claimTimer m).Tabled := by
  unfold Station.claimTimer
  dsimp -failIfUnchanged only
  (repeat' split) <;> first | exact ht | simp (maxDischargeDepth := 20) [ht] | simp_all

@[simp] theorem Station.tabled_handoverTimedOut {st : Station} {m : MoverId} {h : Handover} (ht : st.Tabled) :
    (st.handoverTimedOut m h).Tabled := by
  unfold Station.handoverTimedOut
  dsimp -failIfUnchanged only
  (repeat' split) <;> first | exact ht | simp (maxDischargeDepth := 20) [ht] | simp_all

@[simp] theorem Station.tabled_handoverTimer {st : Station} {m : MoverId} (ht : st.Tabled) :
    (st.handoverTimer m).Tabled := by
  unfold Station.handoverTimer
  dsimp -failIfUnchanged only
  (repeat' split) <;> first | exact ht | simp (maxDischargeDepth := 20) [ht] | simp_all

@[simp] theorem Station.tabled_followCheck {st : Station} {m : MoverId} (ht : st.Tabled) :
    (st.followCheck m).Tabled := by
  unfold Station.followCheck
  dsimp -failIfUnchanged only
  (repeat' split) <;> first | exact ht | simp (maxDischargeDepth := 20) [ht] | simp_all

@[simp] theorem Station.tabled_dwellTick {st : Station} {m : MoverId} (ht : st.Tabled) :
    (st.dwellTick m).Tabled := by
  refine Station.tabled_modifyEntry ht fun e he => ?_
  split <;> simpa using he

@[simp] theorem Station.tabled_endDenied {st : Station} {m : MoverId} (ht : st.Tabled) :
    (st.endDenied m).Tabled := by
  unfold Station.endDenied
  dsimp -failIfUnchanged only
  (repeat' split) <;> first | exact ht | simp (maxDischargeDepth := 20) [ht] | simp_all

@[simp] theorem Station.tabled_endTimeout {st : Station} {m : MoverId} (ht : st.Tabled) :
    (st.endTimeout m).Tabled := by
  unfold Station.endTimeout
  dsimp -failIfUnchanged only
  (repeat' split) <;> first | exact ht | simp (maxDischargeDepth := 20) [ht] | simp_all

@[simp] theorem Station.tabled_zoneWaitTick {st : Station} {m : MoverId} (ht : st.Tabled) :
    (st.zoneWaitTick m).Tabled := by
  unfold Station.zoneWaitTick
  dsimp -failIfUnchanged only
  (repeat' split) <;> first | exact ht | simp (maxDischargeDepth := 20) [ht] | simp_all

@[simp] theorem Station.tabled_timedPart {st : Station} {m : MoverId} (ht : st.Tabled) :
    (st.timedPart m).Tabled := by
  unfold Station.timedPart
  dsimp -failIfUnchanged only
  (repeat' split) <;> first | exact ht | simp (maxDischargeDepth := 20) [ht] | simp_all

@[simp] theorem Station.tabled_startPart {st : Station} {m : MoverId} (ht : st.Tabled) :
    (st.startPart m).Tabled := by
  refine Station.tabled_modifyEntry ht fun e he => ?_
  split <;> simpa [Entry.startMove] using he

@[simp] theorem Station.tabled_completeMove {st : Station} {m : MoverId} {r : MoveRecord} (ht : st.Tabled) :
    (st.completeMove m r).Tabled := by
  unfold Station.completeMove
  split
  · exact ht
  · have : ∀ f : Entry → Entry, (∀ e : Entry, (f e).id = e.id) → ((st.endMove m).modifyEntry m f).Tabled := fun f hf =>
      Station.tabled_modifyEntry (by simp [ht]) fun e he => (hf e).trans he
    dsimp only
    split
    · refine Station.tabled_report (this _ fun e => ?_)
      split <;> rfl
    · refine this _ fun e => ?_
      split <;> rfl

@[simp] theorem Station.tabled_reachHoldLimit {st : Station} {m : MoverId} (ht : st.Tabled) :
    (st.reachHoldLimit m).Tabled := by
  unfold Station.reachHoldLimit
  dsimp -failIfUnchanged only
  (repeat' split) <;> first | exact ht | simp (maxDischargeDepth := 20) [ht] | simp_all

@[simp] theorem Station.tabled_stepMoving {st : Station} {m : MoverId} (ht : st.Tabled) :
    (st.stepMoving m).Tabled := by
  unfold Station.stepMoving
  dsimp -failIfUnchanged only
  (repeat' split) <;> first | exact ht | simp (maxDischargeDepth := 20) [ht] | simp_all

@[simp] theorem Station.tabled_stepStopping {st : Station} {m : MoverId} (ht : st.Tabled) :
    (st.stepStopping m).Tabled := by
  unfold Station.stepStopping
  dsimp -failIfUnchanged only
  (repeat' split) <;> first | exact ht | simp (maxDischargeDepth := 20) [ht] | simp_all

@[simp] theorem Station.tabled_stepPart {st : Station} {m : MoverId} (ht : st.Tabled) :
    (st.stepPart m).Tabled := by
  unfold Station.stepPart
  dsimp -failIfUnchanged only
  (repeat' split) <;> first | exact ht | simp (maxDischargeDepth := 20) [ht] | simp_all

@[simp] theorem Station.tabled_becomeHanding {st : Station} {e : Entry} (ht : st.Tabled) :
    (st.becomeHanding e).Tabled := by
  simp [Station.becomeHanding, ht]

@[simp] theorem Station.tabled_transferPart {st : Station} {m : MoverId} (ht : st.Tabled) :
    (st.transferPart m).Tabled := by
  unfold Station.transferPart
  dsimp -failIfUnchanged only
  (repeat' split) <;> first | exact ht | simp (maxDischargeDepth := 20) [ht] | simp_all

@[simp] theorem Station.tabled_releasePart {st : Station} {m : MoverId} {d : Int} (ht : st.Tabled) :
    (st.releasePart m d).Tabled := by
  unfold Station.releasePart
  dsimp -failIfUnchanged only
  (repeat' split) <;> first | exact ht | simp (maxDischargeDepth := 20) [ht] | simp_all

@[simp] theorem Station.tabled_claimPart {st : Station} {m : MoverId} (ht : st.Tabled) :
    (st.claimPart m).Tabled := by
  unfold Station.claimPart
  dsimp -failIfUnchanged only
  (repeat' split) <;> first | exact ht | simp (maxDischargeDepth := 20) [ht] | simp_all

@[simp] theorem Station.tabled_trackPart {st : Station} {m : MoverId} (ht : st.Tabled) :
    (st.trackPart m).Tabled := by
  unfold Station.trackPart
  dsimp -failIfUnchanged only
  (repeat' split) <;> first | exact ht | simp (maxDischargeDepth := 20) [ht] | simp_all

@[simp] theorem Station.tabled_demandPart {st : Station} {m : MoverId} {before : Int} (ht : st.Tabled) :
    (st.demandPart m before).Tabled := by
  unfold Station.demandPart
  dsimp -failIfUnchanged only
  (repeat' split) <;> first | exact ht | simp (maxDischargeDepth := 20) [ht] | simp_all

@[simp] theorem Station.tabled_visitorWork {st : Station} {m : MoverId} (ht : st.Tabled) :
    (st.visitorWork m).Tabled := by
  unfold Station.visitorWork
  dsimp -failIfUnchanged only
  (repeat' split) <;> first | exact ht | simp (maxDischargeDepth := 20) [ht] | simp_all

@[simp] theorem Station.tabled_parts {st : Station} {m : MoverId} {e : Entry} (ht : st.Tabled) :
    (st.parts m e).Tabled := by
  unfold Station.parts
  dsimp -failIfUnchanged only
  (repeat' split) <;> first | exact ht | simp (maxDischargeDepth := 20) [ht] | simp_all

@[simp] theorem Station.tabled_ownerWork {st : Station} {m : MoverId} (ht : st.Tabled) :
    (st.ownerWork m).Tabled := by
  unfold Station.ownerWork
  dsimp -failIfUnchanged only
  (repeat' split) <;> first | exact ht | simp (maxDischargeDepth := 20) [ht] | simp_all

@[simp] theorem Station.tabled_workEntry {st : Station} {m : MoverId} (ht : st.Tabled) :
    (st.workEntry m).Tabled := by
  unfold Station.workEntry
  dsimp -failIfUnchanged only
  (repeat' split) <;> first | exact ht | simp (maxDischargeDepth := 20) [ht] | simp_all

@[simp] theorem Station.tabled_probeTick {st : Station} {d : Side} (ht : st.Tabled) :
    (st.probeTick d).Tabled := by
  unfold Station.probeTick
  dsimp -failIfUnchanged only
  (repeat' split) <;> first | exact ht | simp (maxDischargeDepth := 20) [ht] | simp_all

@[simp] theorem Station.tabled_releaseFrom {st : Station} {s : Address} {m : MoverId} {f n : Nat} (ht : st.Tabled) :
    (st.releaseFrom s m f n).Tabled := by
  unfold Station.releaseFrom
  dsimp -failIfUnchanged only
  (repeat' split) <;> first | exact ht | simp (maxDischargeDepth := 20) [ht] | simp_all

@[simp] theorem Station.tabled_cancelFrom {st : Station} {s : Address} {m : MoverId} {g : ZoneNo} (ht : st.Tabled) :
    (st.cancelFrom s m g).Tabled := by
  unfold Station.cancelFrom
  dsimp -failIfUnchanged only
  (repeat' split) <;> first | exact ht | simp (maxDischargeDepth := 20) [ht] | simp_all

@[simp] theorem Station.tabled_grantFrom {st : Station} {n : Address} {m : MoverId} {g : ZoneNo} (ht : st.Tabled) :
    (st.grantFrom n m g).Tabled := by
  unfold Station.grantFrom
  dsimp -failIfUnchanged only
  (repeat' split) <;> first | exact ht | simp (maxDischargeDepth := 20) [ht] | simp_all

@[simp] theorem Station.tabled_queuedFrom {st : Station} {n : Address} {m : MoverId} {g : ZoneNo} {place : Nat} (ht : st.Tabled) :
    (st.queuedFrom n m g place).Tabled := by
  unfold Station.queuedFrom
  dsimp -failIfUnchanged only
  (repeat' split) <;> first | exact ht | simp (maxDischargeDepth := 20) [ht] | simp_all

@[simp] theorem Station.tabled_deniedFrom {st : Station} {n : Address} {m : MoverId} {g : ZoneNo} {r : DenialReason} (ht : st.Tabled) :
    (st.deniedFrom n m g r).Tabled := by
  unfold Station.deniedFrom
  dsimp -failIfUnchanged only
  (repeat' split) <;> first | exact ht | simp (maxDischargeDepth := 20) [ht] | simp_all

@[simp] theorem Station.tabled_deferredFrom {st : Station} {n : Address} {m : MoverId} {g : ZoneNo} (ht : st.Tabled) :
    (st.deferredFrom n m g).Tabled := by
  unfold Station.deferredFrom
  dsimp -failIfUnchanged only
  (repeat' split) <;> first | exact ht | simp (maxDischargeDepth := 20) [ht] | simp_all

@[simp] theorem Station.tabled_relabelZone {st : Station} {k : Nat} {m : MoverId} {s : Address} (ht : st.Tabled) :
    (st.relabelZone k m s).Tabled := by
  refine Station.tabled_modifyZone ht fun z _ hz => ?_
  split
  · rename_i hb
    refine hz.part (List.Sublist.refl _) fun m' hm' => ?_
    simp only [ZoneState.heldBy, decide_eq_true_eq] at hm'
    exact hm' ▸ hb
  · exact hz

@[simp] theorem Station.tabled_relabelClaim {st : Station} {k : Nat} {m : MoverId} {s : Address} (ht : st.Tabled) :
    (st.relabelClaim k m s).Tabled := by
  refine Station.tabled_modifyZone ht fun z _ hz => ?_
  have hm : ∀ c : WaitClaim, (if c.mover = m then
      { c with station := s, entryFlag := false, queuedOwed := if s = st.own then none else c.queuedOwed }
      else c).mover = c.mover := fun c => by split <;> rfl
  refine ⟨by simpa using hz.size, ?_, fun c hc => ?_⟩
  · simp only [List.map_map, Function.comp_def, hm]
    exact hz.oneEach
  · obtain ⟨c', hc', rfl⟩ := List.mem_map.1 hc
    rw [hm]
    exact hz.notHolder c' hc'

@[simp] theorem Station.tabled_settleZones {st : Station} {c : HandoverContent} (ht : st.Tabled) :
    (st.settleZones c).Tabled := by
  unfold Station.settleZones
  refine Station.tabled_foldl _ (fun st x ht => ?_) _ _ ht
  dsimp -failIfUnchanged only
  (repeat' split) <;> simp (maxDischargeDepth := 20) [ht]

@[simp] theorem Station.tabled_settleClaims {st : Station} {c : HandoverContent} (ht : st.Tabled) :
    (st.settleClaims c).Tabled := by
  unfold Station.settleClaims
  refine Station.tabled_foldl _ (fun st x ht => ?_) _ _ ht
  dsimp -failIfUnchanged only
  (repeat' split) <;> simp (maxDischargeDepth := 20) [ht]

@[simp] theorem Station.tabled_takeFaults {st : Station} {n : Address} {m : MoverId} {p : Position} (ht : st.Tabled) :
    (st.takeFaults n m p).Tabled := by
  unfold Station.takeFaults
  dsimp -failIfUnchanged only
  (repeat' split) <;> first | exact ht | simp (maxDischargeDepth := 20) [ht] | simp_all

@[simp] theorem Station.tabled_takeHandover {st : Station} {n : Address} {c : HandoverContent} (ht : st.Tabled) :
    (st.takeHandover n c).Tabled := by
  unfold Station.takeHandover
  refine Station.tabled_takeFaults (Station.tabled_writeDemand (Station.tabled_bump (Station.tabled_modifyEntry ?_
    fun _ _ => rfl)))
  refine Station.tabled_settleClaims (Station.tabled_settleZones ?_)
  simp [ht]

@[simp] theorem Station.tabled_handoverFrom {st : Station} {n : Address} {c : HandoverContent} (ht : st.Tabled) :
    (st.handoverFrom n c).Tabled := by
  unfold Station.handoverFrom
  dsimp -failIfUnchanged only
  (repeat' split) <;> first | exact ht | simp (maxDischargeDepth := 20) [ht] | simp_all

@[simp] theorem Station.tabled_relabelAll {st : Station} {m : MoverId} {s : Address} (ht : st.Tabled) :
    (st.relabelAll m s).Tabled := by
  unfold Station.relabelAll
  exact Station.tabled_foldl _ (fun st x h => by simp (maxDischargeDepth := 20) [h]) _ _ (Station.tabled_foldl _ (fun st x h => by simp (maxDischargeDepth := 20) [h]) _ _ ht)

@[simp] theorem Station.tabled_testTaken {st : Station} {m : MoverId} (ht : st.Tabled) : (st.testTaken m).Tabled := by
  unfold Station.testTaken
  split <;> simp [ht]

@[simp] theorem Station.tabled_applyTaken {st : Station} {n : Address} {e : Entry} (ht : st.Tabled) :
    (st.applyTaken n e).Tabled := by
  unfold Station.applyTaken
  refine Station.tabled_testTaken (Station.tabled_recompute (Station.tabled_modifyEntry ?_ fun _ _ => rfl))
  exact Station.tabled_relabelAll (Station.tabled_foldl _ (fun st p h => Station.tabled_placeSend h) _ _ ht)

@[simp] theorem Station.tabled_takenFrom {st : Station} {n : Address} {m : MoverId} (ht : st.Tabled) :
    (st.takenFrom n m).Tabled := by
  unfold Station.takenFrom
  dsimp -failIfUnchanged only
  (repeat' split) <;> first | exact ht | simp (maxDischargeDepth := 20) [ht] | simp_all

@[simp] theorem Station.tabled_refusedFrom {st : Station} {n : Address} {m : MoverId} {r : HandoverRefusal} (ht : st.Tabled) :
    (st.refusedFrom n m r).Tabled := by
  unfold Station.refusedFrom
  dsimp -failIfUnchanged only
  (repeat' split) <;> first | exact ht | simp (maxDischargeDepth := 20) [ht] | simp_all

@[simp] theorem Station.tabled_trackFrom {st : Station} {n : Address} {m : MoverId} {p : Position} {v d : Int} (ht : st.Tabled) :
    (st.trackFrom n m p v d).Tabled := by
  unfold Station.trackFrom
  dsimp -failIfUnchanged only
  (repeat' split) <;> first | exact ht | simp (maxDischargeDepth := 20) [ht] | simp_all

@[simp] theorem Station.tabled_neighbourDrive {st : Station} {d : Side} {ds : DriveState} (ht : st.Tabled) :
    (st.neighbourDrive d ds).Tabled := by
  unfold Station.neighbourDrive
  dsimp -failIfUnchanged only
  (repeat' split) <;> first | exact ht | simp (maxDischargeDepth := 20) [ht] | simp_all

@[simp] theorem Station.tabled_purgeZones {st : Station} {n : Address} (ht : st.Tabled) :
    (st.purgeZones n).Tabled := by
  unfold Station.purgeZones
  refine Station.tabled_offerEntry (Station.tabled_examine
    (Station.tabled_filterEntries (Station.tabled_foldl _ (fun st k ht => ?_) _ _ ht)))
  refine Station.tabled_modifyZone ?_ fun z _ hz => hz.filter fun c => c.station ≠ n
  split <;> simp (maxDischargeDepth := 20) [ht]

@[simp] theorem Station.tabled_purgeVisitor {st : Station} {n : Address} {m : MoverId} (ht : st.Tabled) :
    (st.purgeVisitor n m).Tabled := by
  unfold Station.purgeVisitor
  (repeat' split) <;> simp [ht, Entry.blank]

@[simp] theorem Station.tabled_judgePresent {st : Station} {d : Side} {p : Present} (ht : st.Tabled) :
    (st.judgePresent d p).Tabled := by
  unfold Station.judgePresent
  dsimp -failIfUnchanged only
  (repeat' split) <;> first | exact ht | simp (maxDischargeDepth := 20) [ht] | simp_all

@[simp] theorem Station.tabled_noticeFrom {st : Station} {n : Address} {ds : DriveState} (ht : st.Tabled) :
    (st.noticeFrom n ds).Tabled := by
  unfold Station.noticeFrom
  dsimp -failIfUnchanged only
  (repeat' split) <;> first | exact ht | simp (maxDischargeDepth := 20) [ht] | simp_all

@[simp] theorem Station.tabled_orderFrom {st : Station} {n : Address} {tag : Nat} {m : MoverId} {k : OrderKind} (ht : st.Tabled) :
    (st.orderFrom n tag m k).Tabled := by
  unfold Station.orderFrom
  dsimp -failIfUnchanged only
  (repeat' split) <;> first | exact ht | simp (maxDischargeDepth := 20) [ht] | simp_all

@[simp] theorem Station.tabled_watchTaken {st : Station} {f : RxFrame} {m : MoverId} (ht : st.Tabled) :
    (st.watchTaken f m).Tabled := by
  unfold Station.watchTaken
  dsimp -failIfUnchanged only
  (repeat' split) <;> first | exact ht | simp (maxDischargeDepth := 20) [ht] | simp_all

@[simp] theorem Station.tabled_loseOwned {st : Station} {e : Entry} (ht : st.Tabled) :
    (st.loseOwned e).Tabled := by
  unfold Station.loseOwned
  dsimp -failIfUnchanged only
  (repeat' split) <;> first | exact ht | simp (maxDischargeDepth := 20) [ht] | simp_all

@[simp] theorem Station.tabled_loseStray {st : Station} {e : Entry} (ht : st.Tabled) :
    (st.loseStray e).Tabled := by
  unfold Station.loseStray
  dsimp -failIfUnchanged only
  (repeat' split) <;> first | exact ht | simp (maxDischargeDepth := 20) [ht] | simp_all

@[simp] theorem Station.tabled_loseMover {st : Station} {m : MoverId} (ht : st.Tabled) :
    (st.loseMover m).Tabled := by
  unfold Station.loseMover
  dsimp -failIfUnchanged only
  (repeat' split) <;> first | exact ht | simp (maxDischargeDepth := 20) [ht] | simp_all

@[simp] theorem Station.tabled_loseAll {st : Station} {sighted : List MoverId} (ht : st.Tabled) :
    (st.loseAll sighted).Tabled := by
  unfold Station.loseAll
  refine Station.tabled_foldl _ (fun st x ht => ?_) _ _ ht
  dsimp -failIfUnchanged only
  (repeat' split) <;> simp (maxDischargeDepth := 20) [ht]

@[simp] theorem Station.tabled_loseTimes {st : Station} {x0 : Nat} (ht : st.Tabled) :
    (st.loseTimes x0).Tabled := by
  induction x0 generalizing st with
  | zero => exact ht
  | succ n ih => exact ih (Station.tabled_loseAll ht)

@[simp] theorem Station.tabled_claimFailed {st : Station} {m : MoverId} {g : ZoneNo} (ht : st.Tabled) :
    (st.claimFailed m g).Tabled := by
  unfold Station.claimFailed
  dsimp -failIfUnchanged only
  (repeat' split) <;> first | exact ht | simp (maxDischargeDepth := 20) [ht] | simp_all

/-! ## The operations with collections of their own -/

/-- Every entry changed under its own ID. -/
theorem Station.tabled_mapEntries {st : Station} {f : Entry → Entry} (h : st.Tabled) (hf : ∀ e : Entry, (f e).id = e.id) :
    ({ st with entries := st.entries.map f } : Station).Tabled :=
  h.same (by simp [Station.movers, hf]) rfl

@[simp] theorem Station.tabled_mapDues {st : Station} {f : Due → Due} (h : st.Tabled) : (st.mapDues f).Tabled := by
  refine ⟨?_, ?_, fun z hz => ?_⟩
  · simpa [Station.mapDues, Station.movers, Function.comp_def, Entry.mapDues] using h.ascending
  · simpa [Station.mapDues, Station.movers, Function.comp_def, Entry.mapDues] using h.size
  · obtain ⟨z', hz', rfl⟩ := List.mem_map.1 hz
    have ht := h.zones z' hz'
    refine ⟨by simpa [Zone.mapDues] using ht.size, by simpa [Zone.mapDues, Function.comp_def] using ht.oneEach,
      fun c hc => ?_⟩
    obtain ⟨c', hc', rfl⟩ := List.mem_map.1 hc
    exact ht.notHolder c' hc'

@[simp] theorem Station.tabled_setTries {st : Station} {p t : Nat} (h : st.Tabled) : (st.setTries p t).Tabled :=
  Station.tabled_mapDues h

@[simp] theorem Station.tabled_passOver {st : Station} {p : Nat} (h : st.Tabled) : (st.passOver p).Tabled :=
  Station.tabled_mapDues h

@[simp] theorem Station.tabled_clearMark {st : Station} {r : SendRef} {p : Nat} (h : st.Tabled) :
    (st.clearMark r p).Tabled := by
  unfold Station.clearMark
  split <;> first
    | exact Station.tabled_modifyEntry h fun _ he => he
    | exact Station.tabled_setSide h
    | exact h.same rfl rfl
    | skip
  · exact Station.tabled_modifyEntry h fun e he => by rw [Entry.setReleaseDue_id]; exact he
  · exact Station.tabled_modifyZone h fun z _ hz => hz.part (List.Sublist.refl _) fun _ hb => hb
  · rename_i k m
    refine Station.tabled_modifyZone h fun z _ hz => ?_
    have hm : ∀ c : WaitClaim, (if c.mover = m then { c with queuedOwed := none } else c).mover = c.mover :=
      fun c => by split <;> rfl
    refine ⟨by simpa using hz.size, ?_, fun c hc => ?_⟩
    · simp only [List.map_map, Function.comp_def, hm]
      exact hz.oneEach
    · obtain ⟨c', hc', rfl⟩ := List.mem_map.1 hc
      rw [hm]
      exact hz.notHolder c' hc'

@[simp] theorem Station.tabled_setDrive {st : Station} {d : DriveState} (h : st.Tabled) : (st.setDrive d).Tabled :=
  Station.tabled_oweNotice (h.same rfl rfl)

@[simp] theorem Station.tabled_becomeOnline {st : Station} (h : st.Tabled) : st.becomeOnline.Tabled := by
  have key : ∀ (st : Station) (d : Side), st.Tabled →
      (if (st.side d).state = .unheard then st.closeSide d .lost else st).Tabled := by
    intro st d h
    split
    · exact Station.tabled_closeSide h
    · exact h
  exact Station.tabled_report (key _ _ (key _ _ (h.same rfl rfl)))

@[simp] theorem Station.tabled_purge {st : Station} {n : Address} {d : Side} (h : st.Tabled) : (st.purge n d).Tabled := by
  unfold Station.purge
  dsimp only
  refine Station.tabled_setSide ?_
  have h1 := Station.tabled_purgeZones (n := n) (Station.tabled_report (b := .neighbourRestart n) h)
  have h2 := Station.tabled_foldl (fun (st : Station) m => st.purgeVisitor n m) (fun st m h => Station.tabled_purgeVisitor h)
    ((st.report (.neighbourRestart n)).purgeZones n).movers _ h1
  generalize List.foldl (fun (st : Station) m => st.purgeVisitor n m) _ _ = visitors at h2 ⊢
  have h3 := Station.tabled_foldl
    (fun (st : Station) m => if (st.entry? m).any (·.handingTo n) then st.endHandover m .handoverLost none else st)
    (fun st m h => by
      split
      · exact Station.tabled_endHandover h
      · exact h) visitors.movers _ h2
  generalize List.foldl _ visitors _ = handed at h3 ⊢
  refine h3.same ?_ rfl
  simp only [Station.movers, List.map_map, Function.comp_def]
  refine List.map_congr_left fun e _ => ?_
  unfold Station.purgeEntry
  split <;> simp

@[simp] theorem Station.tabled_presentFrom {st : Station} {n : Address} {p : Present} (h : st.Tabled) :
    (st.presentFrom n p).Tabled := by
  unfold Station.presentFrom
  split
  · exact h
  · rename_i d _
    have h1 : (if p.fresh && (st.side d).state.heard then st.purge n d else st).Tabled := by split <;> simp [h]
    dsimp only
    (repeat' split) <;> simp (maxDischargeDepth := 20) [h]

@[simp] theorem Station.tabled_replyFrom {st : Station} {n : Address} {t : Nat} {m : MoverId} {r : OrderResult}
    (h : st.Tabled) : (st.replyFrom n t m r).Tabled := by
  unfold Station.replyFrom
  (repeat' split) <;> exact h.same rfl rfl

@[simp] theorem Station.tabled_originCheck {st : Station} {t : Nat} (h : st.Tabled) : (st.originCheck t).Tabled := by
  unfold Station.originCheck
  (repeat' split) <;> first
    | exact h
    | exact (Station.tabled_applyOrder h).same rfl rfl
    | exact h.same rfl rfl

@[simp] theorem Station.tabled_handOn {st : Station} {n : Address} {f : Frame} (h : st.Tabled) :
    (st.handOn n f).Tabled := by
  unfold Station.handOn
  split <;> simp [h]

@[simp] theorem Station.tabled_settleHead {st : Station} {f : RxFrame} {rest : List RxFrame} {fr : Frame}
    (h : st.Tabled) : (st.settleHead f rest fr).Tabled := by
  unfold Station.settleHead
  dsimp only
  (repeat' split)
  · exact h.same rfl rfl
  · exact h.same rfl rfl
  · exact Station.tabled_handOn (h.same rfl rfl)

@[simp] theorem Station.tabled_takeHead {st : Station} {f : RxFrame} {rest : List RxFrame} (h : st.Tabled) :
    (st.takeHead f rest).Tabled := by
  have hp : ({ st with rxQueue := rest } : Station).Tabled := h.same rfl rfl
  unfold Station.takeHead
  (repeat' split) <;> simp [h, hp]

@[simp] theorem Station.tabled_retestHead {st : Station} (h : st.Tabled) : st.retestHead.Tabled := by
  unfold Station.retestHead
  (repeat' split) <;> simp [h]

@[simp] theorem Station.tabled_retestIfFreed {st before : Station} (h : st.Tabled) :
    (st.retestIfFreed before).Tabled := by
  unfold Station.retestIfFreed
  split <;> simp [h]

@[simp] theorem Station.tabled_dropUnknown {st : Station} (h : st.Tabled) : st.dropUnknown.Tabled := by
  unfold Station.dropUnknown
  split
  · exact h
  · exact h.same rfl rfl

@[simp] theorem Station.tabled_takeBehind {st : Station} {f : RxFrame} (h : st.Tabled) : (st.takeBehind f).Tabled := by
  unfold Station.takeBehind
  split <;> simp [h]

@[simp] theorem Station.tabled_takeFrame {st : Station} {w : RxFrame → Bool} (h : st.Tabled) :
    (st.takeFrame w).Tabled := by
  unfold Station.takeFrame
  split
  · exact h
  · have hc : (if st.rxStalled then st else st.dropUnknown).Tabled := by split <;> simp [h]
    generalize (if st.rxStalled then st else st.dropUnknown) = cleared at hc
    dsimp only
    (repeat' split) <;> first
      | exact hc
      | simp [hc]
      | exact Station.tabled_retestIfFreed (Station.tabled_takeBehind (hc.same rfl rfl))

/-- An adoption takes FREE zones with empty lists (R144, R145). -/
theorem Station.tabled_adopt {st : Station} {m : MoverId} {p : Position} (h : st.Tabled)
    (hz : ∀ k ∈ st.ownTouched p, ∀ z, st.zones[k]? = some z → z.inUse = false) : (st.adopt m p).Tabled := by
  unfold Station.adopt
  dsimp only
  have key : ∀ (ks : List Nat) (st : Station), st.Tabled →
      (∀ k ∈ ks, ∀ z, st.zones[k]? = some z → z.waiting = []) →
      (ks.foldl (fun st k => st.modifyZone k fun z => { z with state := .held m st.own, grantOwed := none }) st).Tabled := by
    intro ks
    induction ks with
    | nil => exact fun st h _ => h
    | cons k ks ih =>
      intro st h hw
      refine ih _ (Station.tabled_modifyZone h fun z hk _ => ?_) fun k' hk' z hz' => ?_
      · have := hw k (List.mem_cons_self ..) z hk
        refine ⟨?_, ?_, ?_⟩ <;> simp [this]
      · simp only [Station.modifyZone, List.getElem?_modify] at hz'
        cases hq : st.zones[k']? with
        | none => simp [hq] at hz'
        | some w =>
          have := hw k' (List.mem_cons_of_mem _ hk') w hq
          simp only [hq] at hz'
          by_cases hkk : k = k'
          · simp [hkk] at hz'
            rw [← hz']; exact this
          · simp [hkk] at hz'
            rw [← hz']; exact this
  refine key _ _ (Station.tabled_modifyEntry h fun _ _ => rfl) fun k hk z hk' => ?_
  have := hz k hk z hk'
  simp [Zone.inUse] at this
  exact this.2

@[simp] theorem Station.tabled_forget {st : Station} {e : Entry} (h : st.Tabled) : (st.forget e).Tabled := by
  unfold Station.forget Station.forgetRecords
  dsimp only
  refine Station.tabled_offerEntry (Station.tabled_examine (Station.tabled_eraseEntry ?_))
  have h1 := Station.tabled_foldl _ (fun (st : Station) (p : Address × Frame) h =>
    Station.tabled_placeSend (n := p.1) (f := p.2) h) (st.forgetSends e) st h
  have h2 : ∀ ks, (List.foldl Station.freeZone (List.foldl (fun st p => st.placeSend p.1 p.2) st (st.forgetSends e))
      ks).Tabled :=
    fun ks => Station.tabled_foldl _ (fun st k h => Station.tabled_freeZone h) ks _ h1
  split
  · exact Station.tabled_mapZones (h2 _) fun z hz => hz.filter _
  · exact h2 _

@[simp] theorem Station.tabled_blockZone {st : Station} {k : Nat} {cs : List WaitClaim} (h : st.Tabled) :
    (st.blockZone k cs).Tabled := by
  unfold Station.blockZone
  dsimp only
  refine Station.tabled_foldl _ (fun st c h => Station.tabled_testVisitor h) _ _ ?_
  refine Station.tabled_foldl _ (fun st c h => Station.tabled_tellDenied h) _ _ ?_
  exact Station.tabled_modifyZone h fun z _ hz => ⟨by simp, by simp, by simp⟩

@[simp] theorem Station.tabled_sightUnknown {st : Station} {m : MoverId} {p : Position} (h : st.Tabled) :
    (st.sightUnknown m p).Tabled := by
  unfold Station.sightUnknown
  split
  · simp [h]
  · rename_i hf
    exact Station.tabled_report (Station.tabled_putEntry h (.inr (by simpa using hf)))

@[simp] theorem Station.tabled_sight {st : Station} {m : MoverId} {p : Position} (h : st.Tabled) :
    (st.sight m p).Tabled := by
  unfold Station.sight
  dsimp only
  (repeat' split) <;> simp [h]

@[simp] theorem Station.tabled_readSightings {st : Station} {seen : List MoverId} {ss : List (Nat × Nat)}
    (h : st.Tabled) : (st.readSightings seen ss).1.Tabled := by
  induction ss generalizing st seen with
  | nil => exact h
  | cons s ss ih =>
    simp only [Station.readSightings]
    split <;> exact ih (by simp [h])

@[simp] theorem Station.tabled_workScan {st : Station} {c : Option Scan} (h : st.Tabled) : (st.workScan c).Tabled := by
  have hb : st.badScan.Tabled := by
    unfold Station.badScan
    dsimp only
    exact (Station.tabled_loseAll (sighted := []) (h.same (st' := st.scanError) rfl rfl)).same rfl rfl
  have hg : ∀ (c : Scan) (g : Nat), (st.goodScan c g).Tabled := by
    intro c g
    unfold Station.goodScan
    dsimp only
    exact (Station.tabled_loseAll (Station.tabled_readSightings (Station.tabled_loseTimes
      (Station.tabled_countSighting h)))).same rfl rfl
  unfold Station.workScan
  (repeat' split) <;> first | exact hb | exact hg _ _ | exact h.same rfl rfl

@[simp] theorem Station.tabled_joinTick {st : Station} (h : st.Tabled) : st.joinTick.Tabled := by
  unfold Station.joinTick
  dsimp only
  (repeat' split)
  · exact h
  · exact Station.tabled_becomeOnline (h.same rfl rfl)
  · exact h.same rfl rfl

@[simp] theorem Station.tabled_orderTick {st : Station} (h : st.Tabled) : st.orderTick.Tabled := h.same rfl rfl

@[simp] theorem Station.tabled_periodWork {st : Station} (h : st.Tabled) : st.periodWork.Tabled := by
  unfold Station.periodWork
  have := Station.tabled_foldl (fun st m => st.workEntry m) (fun st m h => Station.tabled_workEntry h) st.movers st h
  simp (maxDischargeDepth := 20) [this]

@[simp] theorem Station.tabled_delivered {st : Station} {a : Attempt} (h : st.Tabled) : (st.delivered a).Tabled := by
  unfold Station.delivered
  split
  · exact Station.tabled_modifyEntry h fun _ he => he
  · exact Station.tabled_modifyEntry h fun _ he => he
  · exact Station.tabled_modifyEntry h fun e he => by rw [Entry.setReleaseDue_id]; exact he
  · simp [h]

@[simp] theorem Station.tabled_deliver {st : Station} {a : Attempt} (h : st.Tabled) : (st.deliver a).Tabled := by
  unfold Station.deliver
  (repeat' split) <;> simp [h]

@[simp] theorem Station.tabled_failed {st : Station} {a : Attempt} (h : st.Tabled) : (st.failed a).Tabled := by
  unfold Station.failed
  (repeat' split) <;> simp [h]

@[simp] theorem Station.tabled_deliveryFailure {st : Station} {a : Attempt} (h : st.Tabled) :
    (st.deliveryFailure a).Tabled := by
  unfold Station.deliveryFailure
  dsimp only
  (repeat' split) <;> simp (maxDischargeDepth := 20) [h]

@[simp] theorem Station.tabled_endAcknowledged {st : Station} {a : Attempt} {b : Bool} (h : st.Tabled) :
    (st.endAcknowledged a b).Tabled := by
  unfold Station.endAcknowledged
  (repeat' split) <;> simp [h]

@[simp] theorem Station.tabled_complete {st : Station} {a : Attempt} (h : st.Tabled) : (st.complete a).Tabled := by
  unfold Station.complete
  dsimp only
  (repeat' split) <;> simp [h]

@[simp] theorem Station.tabled_endAttempt {st : Station} {a : Attempt} {slot : SlotReading} (h : st.Tabled) :
    (st.endAttempt a slot).Tabled := by
  have hi : ({ st with attempt := none } : Station).Tabled := h.same rfl rfl
  unfold Station.endAttempt
  dsimp only
  (repeat' split) <;> simp (maxDischargeDepth := 20) [hi]

@[simp] theorem Station.tabled_contend {st : Station} {rivals : List Byte} (h : st.Tabled) :
    (st.contend rivals).Tabled := by
  unfold Station.contend Station.startAttempt
  (repeat' split) <;> first | exact h | exact (Station.tabled_passOver h).same rfl rfl

@[simp] theorem Station.tabled_tripFault {st : Station} {m : MoverId} (h : st.Tabled) : (st.tripFault m).Tabled := by
  unfold Station.tripFault
  (repeat' split) <;> simp [h]

@[simp] theorem Station.tabled_trip {st : Station} {c : TripCause} (h : st.Tabled) : (st.trip c).Tabled := by
  have hl : ({ st with latch := some c } : Station).Tabled := h.same rfl rfl
  exact Station.tabled_denyRemoteClaims
    (Station.tabled_foldl _ (fun _ _ h => Station.tabled_tripFault h) _ _ (by simp (maxDischargeDepth := 20) [hl]))

@[simp] theorem Station.tabled_inputActive {st : Station} {c : TripCause} (h : st.Tabled) :
    (st.inputActive c).Tabled := by
  unfold Station.inputActive
  (repeat' split) <;> first | exact h | exact h.same rfl rfl | simp [h]

@[simp] theorem Station.tabled_enterMaintenance {st : Station} (h : st.Tabled) : st.enterMaintenance.Tabled := by
  unfold Station.enterMaintenance
  dsimp only
  refine Station.tabled_filterEntries (Station.tabled_foldl _ (fun st k h => ?_) _ _ ?_)
  · split <;> simp [h]
  · refine Station.tabled_foldl _ (fun st p h => Station.tabled_tellDenied h) _ _ ?_
    refine (Station.tabled_mapZones (st := st) (f := fun z => { z with waiting := [] }) h fun z hz => ?_).same rfl rfl
    exact ⟨by simp, by simp, by simp⟩

end Sys2Proof.Machine
end

