-- ==== Sys2Proof/Laws/Events.lean ====
section
/-! SUPPORT. What the end of every event gives: the switch outputs after it, the report state after it, and the fields of
the station that it leaves alone. -/

namespace Sys2Proof.Machine

/-- A guarded request never asks for both switches of a leg (R155). -/
theorem Switches.guarded_noShootThrough (q : Switches) : q.guarded.noShootThrough = true := by
  rcases q with ⟨a, b, c, d⟩
  cases a <;> cases b <;> cases c <;> cases d <;> rfl

theorem Switches.noShootThrough_iff (q : Switches) :
    q.noShootThrough = true ↔ ¬(q.ah = true ∧ q.al = true) ∧ ¬(q.bh = true ∧ q.bl = true) := by
  rcases q with ⟨a, b, c, d⟩
  cases a <;> cases b <;> cases c <;> cases d <;> decide

theorem Station.request_noShootThrough (st : Station) (k : Nat) (c : Coil) :
    (st.request k c).noShootThrough = true := by
  unfold Station.request
  split
  · rfl
  · exact Switches.guarded_noShootThrough _

/-- An output that is on after the deadtime is requested on (R156). -/
theorem legOutputs_requested (dead : Nat) (rh rl oh ol : Bool) (fh fl : Nat) :
    ((legOutputs dead rh rl oh ol fh fl).1.1 = true → rh = true) ∧
    ((legOutputs dead rh rl oh ol fh fl).1.2 = true → rl = true) := by
  unfold legOutputs
  cases rh <;> cases rl <;> cases oh <;> cases ol <;> simp

/-- No leg has both switches on after its outputs followed a request that asks for none such (R155). -/
theorem Coil.follow_noShootThrough (c : Coil) (dead : Nat) (q : Switches) (hq : q.noShootThrough = true) :
    (c.follow dead q).outputs.noShootThrough = true := by
  have ha := legOutputs_requested dead q.ah q.al c.outputs.ah c.outputs.al c.offClocks.ah c.offClocks.al
  have hb := legOutputs_requested dead q.bh q.bl c.outputs.bh c.outputs.bl c.offClocks.bh c.offClocks.bl
  have hq' := (Switches.noShootThrough_iff q).1 hq
  have h1 : ¬((c.follow dead q).outputs.ah = true ∧ (c.follow dead q).outputs.al = true) :=
    fun h => hq'.1 ⟨ha.1 h.1, ha.2 h.2⟩
  have h2 : ¬((c.follow dead q).outputs.bh = true ∧ (c.follow dead q).outputs.bl = true) :=
    fun h => hq'.2 ⟨hb.1 h.1, hb.2 h.2⟩
  exact (Switches.noShootThrough_iff _).2 ⟨h1, h2⟩

/-- No leg of any coil has both switches on once the outputs were brought up to their requests (R155). -/
theorem Station.refreshOutputs_legs (st : Station) :
    ∀ c ∈ st.refreshOutputs.coils, c.outputs.noShootThrough = true := by
  intro c hc
  obtain ⟨k, hk, rfl⟩ := List.mem_mapIdx.1 hc
  exact Coil.follow_noShootThrough _ _ _ (Station.request_noShootThrough _ _ _)

theorem State.commit_legs (s : State) (st : Station) :
    ∀ c ∈ (s.commit st).station.coils, c.outputs.noShootThrough = true :=
  Station.refreshOutputs_legs _

/-- Of the station, only the reports made and the switch outputs change at the end of an event. -/
@[simp] theorem State.commit_outbox (s : State) (st : Station) : (s.commit st).station.outbox = [] := rfl
@[simp] theorem State.commit_entries (s : State) (st : Station) : (s.commit st).station.entries = st.entries := rfl
@[simp] theorem State.commit_zones (s : State) (st : Station) : (s.commit st).station.zones = st.zones := rfl
@[simp] theorem State.commit_attempt (s : State) (st : Station) : (s.commit st).station.attempt = st.attempt := rfl
@[simp] theorem State.commit_sendList (s : State) (st : Station) : (s.commit st).station.sendList = st.sendList := rfl
@[simp] theorem State.commit_lowerSide (s : State) (st : Station) : (s.commit st).station.lowerSide = st.lowerSide := rfl
@[simp] theorem State.commit_upperSide (s : State) (st : Station) : (s.commit st).station.upperSide = st.upperSide := rfl
@[simp] theorem State.commit_kept (s : State) (st : Station) : (s.commit st).station.kept = st.kept := by
  simp [State.commit, Station.refreshOutputs, Station.kept]

theorem State.commit_tabled {s : State} {st : Station} (h : st.Tabled) : (s.commit st).station.Tabled :=
  h.same rfl rfl

/-- The report state stays consistent through the reports of an event (R166 to R172). -/
theorem State.commit_consistent {s : State} (st : Station) (h : s.reports.Consistent) : (s.commit st).reports.Consistent :=
  h.addAll _ _

end Sys2Proof.Machine
end

