-- ==== Sys2Proof/Laws/Examination.lean ====
section
/-! SUPPORT. The examination of wait lists (R27 to R29) without its fuel: what it makes of no look, of a look at a list
whose head is not to be examined, and of a head that stays, is granted or is denied. -/

namespace Sys2Proof.Machine

/-- Looks that an examination can still make: those listed, and one at each list for each claim that a denial can remove. -/
def Station.looksLeft (st : Station) (ls : List Look) : Nat := ls.length + st.claimTotal * (st.zones.length + 1)

/-- The claims counted are those of the zone table. -/
theorem Station.claimTotal_congr {st st' : Station} (h : st'.zones = st.zones) : st'.claimTotal = st.claimTotal := by
  simp [Station.claimTotal, h]

/-- The sum over a list with one element changed. -/
theorem sum_map_modify {α : Type} (f : α → Nat) (g : α → α) (xs : List α) (k : Nat) (x : α) (h : xs[k]? = some x) :
    ((xs.modify k g).map f).sum + f x = (xs.map f).sum + f (g x) := by
  induction xs generalizing k with
  | nil => simp at h
  | cons y ys ih =>
    cases k with
    | zero => simp at h; subst h; simp; omega
    | succ k => simp at h; have := ih k h; simp; omega

theorem Station.freeHead_spec {st : Station} {k : Nat} {c : WaitClaim} (h : st.freeHead? k = some c) :
    ∃ z, st.zones[k]? = some z ∧ z.state = .free ∧ z.waiting.head? = some c := by
  simp only [Station.freeHead?, Station.zone?, Option.bind_eq_some_iff] at h
  obtain ⟨z, hz, hc⟩ := h
  split at hc
  · exact ⟨z, hz, ‹_›, hc⟩
  · simp at hc

/-- The removal of a head takes one claim away. -/
theorem Station.claimTotal_popHead {st : Station} {k : Nat} {c : WaitClaim} (h : st.freeHead? k = some c) :
    (st.popHead k).claimTotal + 1 = st.claimTotal := by
  obtain ⟨z, hz, -, hc⟩ := Station.freeHead_spec h
  have := sum_map_modify (fun z : Zone => z.waiting.length) (fun z => { z with waiting := z.waiting.tail }) st.zones k z hz
  cases hw : z.waiting with
  | nil => simp [hw] at hc
  | cons a as =>
    simp only [Station.claimTotal, Station.popHead, Station.modifyZone, hw, List.tail_cons, List.length_cons] at this ⊢
    omega

/-- A change of one zone that leaves its wait list leaves the count of claims. -/
theorem Station.claimTotal_modifyZone (st : Station) (k : Nat) (f : Zone → Zone) (hf : ∀ z, (f z).waiting = z.waiting) :
    (st.modifyZone k f).claimTotal = st.claimTotal := by
  cases hz : st.zones[k]? with
  | none => simp [Station.claimTotal, Station.modifyZone, List.modify_eq_self (List.getElem?_eq_none_iff.mp hz)]
  | some z =>
    have := sum_map_modify (fun z : Zone => z.waiting.length) f st.zones k z hz
    simp only [Station.claimTotal, Station.modifyZone, hf] at this ⊢
    omega

/-- A grant to a head takes its claim away and leaves the number of zones. -/
theorem Station.claimTotal_grantHead {st : Station} {k : Nat} {c : WaitClaim} (cls : ClaimClass)
    (h : st.freeHead? k = some c) : (st.grantHead k c cls).claimTotal + 1 = st.claimTotal := by
  rw [← Station.claimTotal_popHead h]
  unfold Station.grantHead Station.grantZone
  have hm : ∀ (f : Zone → Zone), (∀ z, (f z).waiting = z.waiting) →
      ((st.popHead k).modifyZone k f).claimTotal = (st.popHead k).claimTotal :=
    fun f hf => Station.claimTotal_modifyZone _ _ _ hf
  congr 1
  dsimp only
  (repeat' split) <;> exact hm _ fun _ => rfl

theorem Station.zones_length_grantHead (st : Station) (k : Nat) (c : WaitClaim) (cls : ClaimClass) :
    (st.grantHead k c cls).zones.length = st.zones.length := by
  unfold Station.grantHead Station.grantZone
  dsimp only
  (repeat' split) <;>
    simp [Station.modifyEntry, Station.makeVisitor, Station.putEntry, Station.bump, Station.modifyZone, Station.popHead]

/-- A denial made known changes no zone. -/
theorem Station.zones_tellDenied (st : Station) (k : Nat) (c : WaitClaim) (r : DenialReason) :
    (st.tellDenied k c r).zones = st.zones := by
  unfold Station.tellDenied Station.denyClaim Station.placeSend
  (repeat' split) <;> rfl

/-- A table entry is offered to each list once at most. -/
theorem Station.length_offers (st : Station) : st.offers.length ≤ st.zones.length := by
  unfold Station.offers Station.waitingZones Station.localZones
  rw [List.length_map]
  exact Nat.le_trans (List.length_filter_le _ _) (by simp)

/-- Where the zones are those left by the removal of a head, the looks left after its denial are fewer. -/
theorem Station.looksLeft_denied {st st' : Station} {k : Nat} {c : WaitClaim} (h : st.freeHead? k = some c)
    (hz : st'.zones = (st.popHead k).zones) (l l' : Look) (ls : List Look) :
    st'.looksLeft (l' :: ls) + 1 ≤ st.looksLeft (l :: ls) ∧
      st'.looksLeft (st'.offers ++ l' :: ls) + 1 ≤ st.looksLeft (l :: ls) := by
  have ho := st'.length_offers
  have hl : st'.zones.length = st.zones.length := by simp [hz, Station.popHead, Station.modifyZone]
  have ht := Station.claimTotal_popHead h
  rw [← Station.claimTotal_congr hz] at ht
  simp only [Station.looksLeft, hl, ← ht, List.length_append, List.length_cons, Nat.add_mul] at ho ⊢
  omega

/-- Fuel beyond the looks left changes nothing. -/
theorem Station.examineLoop_fuel (a b : Nat) (ls : List Look) (st : Station) (ha : st.looksLeft ls ≤ a)
    (hb : st.looksLeft ls ≤ b) : Station.examineLoop a ls st = Station.examineLoop b ls st := by
  induction a generalizing b ls st with
  | zero =>
    have hls : ls = [] := by
      cases ls with
      | nil => rfl
      | cons l ls => simp [Station.looksLeft] at ha
    subst hls
    cases b <;> rfl
  | succ a ih =>
    cases ls with
    | nil => cases b <;> rfl
    | cons l ls =>
      cases b with
      | zero => simp [Station.looksLeft] at hb
      | succ b =>
        have hstep : st.looksLeft ls ≤ a ∧ st.looksLeft ls ≤ b := by
          simp only [Station.looksLeft, List.length_cons] at ha hb ⊢; omega
        simp only [Station.examineLoop]
        cases hc : st.lookedAt l with
        | none => exact ih _ _ _ hstep.1 hstep.2
        | some c =>
          have hh := Station.freeHead_of_lookedAt hc
          dsimp only
          cases hv : st.headVerdict l.zone c with
          | stay => exact ih _ _ _ hstep.1 hstep.2
          | granted cls =>
            have ht := Station.claimTotal_grantHead cls hh
            have hl := Station.zones_length_grantHead st l.zone c cls
            have : (st.grantHead l.zone c cls).looksLeft ls ≤ st.looksLeft ls := by
              simp only [Station.looksLeft, hl, ← ht, Nat.add_mul]; omega
            exact ih _ _ _ (by omega) (by omega)
          | denied r =>
            have hz := Station.zones_tellDenied (st.popHead l.zone) l.zone c r
            have h1 := Station.looksLeft_denied hh hz l ⟨l.zone, false⟩ ls
            have h2 := Station.looksLeft_denied (st' := ((st.popHead l.zone).tellDenied l.zone c r).eraseEntry c.mover)
              hh hz l ⟨l.zone, false⟩ ls
            dsimp only
            split
            · exact ih _ _ _ (by omega) (by omega)
            · exact ih _ _ _ (by omega) (by omega)

/-- The fuel of an examination is enough. -/
theorem Station.examineAll_fuel (st : Station) (ls : List Look) (n : Nat) (h : st.looksLeft ls ≤ n) :
    Station.examineLoop n ls st = st.examineAll ls := by
  refine Station.examineLoop_fuel _ _ _ _ h ?_
  simp only [Station.looksLeft, Nat.add_mul, Nat.mul_add]
  omega

@[simp] theorem Station.examineAll_nil (st : Station) : st.examineAll [] = st := by
  unfold Station.examineAll
  generalize (st.claimTotal + 1) * (st.zones.length + 2) + ([] : List Look).length = n
  cases n <;> rfl

/-- One look at a time (R27, R29): what the examination makes of the first one, and the others after it. -/
theorem Station.examineAll_cons (st : Station) (l : Look) (ls : List Look) :
    st.examineAll (l :: ls) =
      match st.lookedAt l with
      | none => st.examineAll ls
      | some c =>
        match st.headVerdict l.zone c with
        | .stay => st.examineAll ls
        | .granted cls => (st.grantHead l.zone c cls).examineAll ls
        | .denied r =>
          let told := (st.popHead l.zone).tellDenied l.zone c r
          if told.idleVisitor c.mover then
            (told.eraseEntry c.mover).examineAll ((told.eraseEntry c.mover).offers ++ ⟨l.zone, false⟩ :: ls)
          else told.examineAll (⟨l.zone, false⟩ :: ls) := by
  rw [← Station.examineAll_fuel st (l :: ls) (st.looksLeft (l :: ls) + 1) (by omega)]
  simp only [Station.examineLoop]
  have hls : st.looksLeft ls ≤ st.looksLeft (l :: ls) := by
    simp only [Station.looksLeft, List.length_cons]; omega
  cases hc : st.lookedAt l with
  | none => exact Station.examineAll_fuel _ _ _ hls
  | some c =>
    have hh := Station.freeHead_of_lookedAt hc
    dsimp only
    cases hv : st.headVerdict l.zone c with
    | stay => exact Station.examineAll_fuel _ _ _ hls
    | granted cls =>
      have ht := Station.claimTotal_grantHead cls hh
      have hl := Station.zones_length_grantHead st l.zone c cls
      refine Station.examineAll_fuel _ _ _ (Nat.le_trans ?_ hls)
      simp only [Station.looksLeft, hl, ← ht, Nat.add_mul]; omega
    | denied r =>
      have hz := Station.zones_tellDenied (st.popHead l.zone) l.zone c r
      have h1 := Station.looksLeft_denied hh hz l ⟨l.zone, false⟩ ls
      have h2 := Station.looksLeft_denied (st' := ((st.popHead l.zone).tellDenied l.zone c r).eraseEntry c.mover)
        hh hz l ⟨l.zone, false⟩ ls
      dsimp only
      split
      · exact Station.examineAll_fuel _ _ _ (by omega)
      · exact Station.examineAll_fuel _ _ _ (by omega)

/-! ## How a head is decided -/

/-- Test 8 of R23: the mover holds no own zone, or the zone lies directly below or above its run. -/
theorem Station.keepsRun_iff (st : Station) (m : MoverId) (k : Nat) :
    st.keepsRun m k = true ↔ (st.holdings m = [] ∨ (st.holdings m).head? = some (k + 1) ∨
      ∃ b, (st.holdings m).getLast? = some b ∧ k = b + 1) := by
  unfold Station.keepsRun
  cases h : st.holdings m with
  | nil => simp
  | cons a l =>
    simp only [List.head?_cons, reduceCtorEq, false_or]
    rw [List.getLast?_eq_some_getLast (by simp)]
    simp only [Option.some.injEq, Bool.or_eq_true, decide_eq_true_eq, exists_eq_left']
    constructor <;> (rintro (h | h)) <;> simp_all

/-- An entry claim (R22): its flag is set, and the mover has no entry but a STRAY's. -/
theorem Station.claimClass_entry (st : Station) (m : MoverId) (n : Address) (flag : Bool) :
    st.claimClass m n flag = .entry ↔ flag = true ∧ (st.entry? m).all (fun e => e.state = .stray) = true := by
  unfold Station.claimClass
  cases st.entry? m with
  | none => cases flag <;> simp
  | some e =>
    rcases e with ⟨_, st1⟩
    simp only [Option.all_some, decide_eq_true_eq]
    (repeat' split) <;> simp_all

/-- An ordinary remote claim (R22, R82, R83): of a VISITOR's owner, or of the station that owns the mover by now. -/
theorem Station.claimClass_ordinary (st : Station) (m : MoverId) (n : Address) (flag : Bool) :
    st.claimClass m n flag = .ordinary ↔ ∃ e, st.entry? m = some e ∧
      ((e.state = .visitor ∧ e.owner = some n) ∨ (e.state = .handing ∧ ∃ h, e.handover = some h ∧ h.target = n) ∨
        (e.state = .resident ∧ e.motion = .faulted .handoverLost ∧ e.lostTarget = some n)) := by
  unfold Station.claimClass
  cases st.entry? m with
  | none => cases flag <;> simp
  | some e =>
    rcases e with ⟨_, st1⟩
    simp only [Option.some.injEq, exists_eq_left', Entry.visitorOf, Entry.handingTo, Entry.lostTo]
    cases st1 <;> cases flag <;> simp [Option.any_eq_true]

end Sys2Proof.Machine
end

