-- ==== Sys2Proof/Laws/Memory.lean ====
section
/-! SUPPORT. The addressed memory of the store: every operation keeps the canonical form, what a read gives after each
operation, and the store operations as whole (R173 to R176). -/

namespace Sys2Proof.Machine

open Sys2Proof.Config

/-! ## Canonical form -/

theorem Memory.wfFrom_mono {low low' : Nat} {m : Memory} (h : low' ≤ low) (w : Memory.wfFrom low m = true) :
    Memory.wfFrom low' m = true := by
  cases m with
  | nil => rfl
  | cons p rest =>
    simp only [Memory.wfFrom, Bool.and_eq_true, decide_eq_true_eq] at w ⊢
    exact ⟨⟨⟨by omega, w.1.1.2⟩, w.1.2⟩, w.2⟩

/-- A byte put in front keeps the form. -/
theorem Memory.wfFrom_cons {low a : Nat} {b : Byte} {rest : Memory} (hl : low ≤ a) (ha : a < pageSize)
    (w : Memory.wfFrom (a + 1) rest = true) : Memory.wfFrom low (Memory.cons a b rest) = true := by
  unfold Memory.cons
  split
  · exact Memory.wfFrom_mono (by omega) w
  · next h => simp [Memory.wfFrom, hl, ha, h, w]

/-- A write within the page keeps the form. -/
theorem Memory.wfFrom_write {low x : Nat} {v : Byte} {m : Memory} (hl : low ≤ x) (hx : x < pageSize)
    (w : Memory.wfFrom low m = true) : Memory.wfFrom low (m.write x v) = true := by
  induction m generalizing low with
  | nil => exact Memory.wfFrom_cons hl hx rfl
  | cons p rest ih =>
    obtain ⟨a, b⟩ := p
    simp only [Memory.wfFrom, Bool.and_eq_true, decide_eq_true_eq, bne_iff_ne, ne_eq] at w
    simp only [Memory.write]
    split
    · refine Memory.wfFrom_cons hl hx ?_
      simp only [Memory.wfFrom, Bool.and_eq_true, decide_eq_true_eq, bne_iff_ne, ne_eq]
      exact ⟨⟨⟨by omega, w.1.1.2⟩, w.1.2⟩, w.2⟩
    · split
      · next h => exact Memory.wfFrom_cons hl hx (h ▸ w.2)
      · simp only [Memory.wfFrom, Bool.and_eq_true, decide_eq_true_eq, bne_iff_ne, ne_eq]
        exact ⟨w.1, ih (by omega) w.2⟩

/-- A write keeps the form. -/
theorem Memory.wf_write {x : Nat} {v : Byte} {m : Memory} (hx : x < pageSize) (w : m.wf = true) :
    (m.write x v).wf = true := Memory.wfFrom_write (by omega) hx w

theorem Memory.wfFrom_build (f : Nat → Byte) (start count : Nat) (h : start + count ≤ pageSize) :
    Memory.wfFrom start (Memory.build f start count) = true := by
  induction count generalizing start with
  | zero => rfl
  | succ n ih => exact Memory.wfFrom_cons (Nat.le_refl _) (by omega) (ih (start + 1) (by omega))

/-- A page built from a function of the offset has the form. -/
theorem Memory.wf_build (f : Nat → Byte) : (Memory.build f 0 pageSize).wf = true :=
  Memory.wfFrom_build f 0 pageSize (Nat.le_refl _)

theorem Memory.wf_commit (page buffer : Memory) : (page.commit buffer).wf = true := Memory.wf_build _

theorem Memory.wf_abandoned (n : Nat) (old new : Memory) : (Memory.abandoned n old new).wf = true :=
  Memory.wf_build _

@[simp] theorem Memory.wf_nil : Memory.wf [] = true := rfl

/-! ## Reads -/

/-- Below what a canonical memory lists, every byte reads as unlisted. -/
theorem Memory.read_below {low x : Nat} {m : Memory} (w : Memory.wfFrom low m = true) (h : x < low) :
    m.read x = Memory.unlisted := by
  cases m with
  | nil => rfl
  | cons p rest =>
    simp only [Memory.wfFrom, Bool.and_eq_true, decide_eq_true_eq] at w
    have : x < p.1 := by omega
    simp [Memory.read, this, Nat.ne_of_gt this]

/-- A byte put in front is read at its offset, and the others as before. -/
theorem Memory.read_cons {a x : Nat} {b : Byte} {rest : Memory} (w : Memory.wfFrom (a + 1) rest = true) :
    (Memory.cons a b rest).read x = if x = a then b else rest.read x := by
  unfold Memory.cons
  by_cases hx : x = a
  · subst hx
    split
    · next h => simpa [h] using Memory.read_below w (Nat.lt_succ_self x)
    · simp [Memory.read]
  · split
    · simp
    · simp only [Memory.read, if_neg (Ne.symm hx)]
      split
      · exact (Memory.read_below w (by omega)).symm
      · rfl

theorem Memory.read_writeFrom {low x y : Nat} {v : Byte} {m : Memory} (w : Memory.wfFrom low m = true) :
    (m.write x v).read y = if y = x then v else m.read y := by
  induction m generalizing low with
  | nil => exact Memory.read_cons rfl
  | cons p rest ih =>
    obtain ⟨a, b⟩ := p
    have w' := w
    simp only [Memory.wfFrom, Bool.and_eq_true, decide_eq_true_eq, bne_iff_ne, ne_eq] at w
    simp only [Memory.write]
    split
    · next hxa =>
      refine Memory.read_cons ?_
      simp only [Memory.wfFrom, Bool.and_eq_true, decide_eq_true_eq, bne_iff_ne, ne_eq]
      exact ⟨⟨⟨by omega, w.1.1.2⟩, w.1.2⟩, w.2⟩
    · split
      · next hx =>
        subst hx
        rw [Memory.read_cons w.2]
        by_cases hy : y = x
        · simp [hy]
        · simp only [Memory.read, if_neg hy, if_neg (Ne.symm hy)]
          split
          · next h => exact Memory.read_below w.2 (by omega)
          · rfl
      · next h1 h2 =>
        simp only [Memory.read]
        by_cases ha : a = y
        · subst ha
          simp [Ne.symm h2]
        · simp only [if_neg ha, ih w.2]
          by_cases hy : y = x
          · subst hy
            simp [h1]
          · simp [hy]

/-- A write is read at its offset, and every other byte as before. -/
theorem Memory.read_write {x y : Nat} {v : Byte} {m : Memory} (w : m.wf = true) :
    (m.write x v).read y = if y = x then v else m.read y := Memory.read_writeFrom w

theorem Memory.read_buildFrom (f : Nat → Byte) (start count x : Nat) (h : start + count ≤ pageSize) :
    (Memory.build f start count).read x = if start ≤ x ∧ x < start + count then f x else Memory.unlisted := by
  induction count generalizing start with
  | zero =>
    have : ¬(start ≤ x ∧ x < start + 0) := by omega
    rw [if_neg this]
    rfl
  | succ n ih =>
    rw [Memory.build, Memory.read_cons (Memory.wfFrom_build f (start + 1) n (by omega)), ih (start + 1) (by omega)]
    by_cases hx : x = start
    · subst hx
      simp
    · rw [if_neg hx]
      by_cases h1 : start + 1 ≤ x ∧ x < start + 1 + n
      · rw [if_pos h1, if_pos (by omega)]
      · rw [if_neg h1, if_neg (by omega)]

/-- A page built from a function of the offset reads as the function. -/
theorem Memory.read_build (f : Nat → Byte) {x : Nat} (hx : x < pageSize) :
    (Memory.build f 0 pageSize).read x = f x := by
  rw [Memory.read_buildFrom f 0 pageSize x (Nat.le_refl _), if_pos ⟨by omega, by omega⟩]

/-- A COMMIT ANDs each byte of the page with the buffer byte at the same offset (R175). -/
theorem Memory.read_commit (page buffer : Memory) {x : Nat} (hx : x < pageSize) :
    (page.commit buffer).read x = page.read x &&& buffer.read x := Memory.read_build _ hx

/-! ## The store -/

theorem Store.Canonical.atReset : Store.erased.Canonical := ⟨rfl, rfl, rfl, by decide⟩

theorem Store.Canonical.clearBuffer {s : Store} (h : s.Canonical) : s.clearBuffer.Canonical :=
  ⟨h.page0, h.page1, rfl, Nat.zero_lt_of_lt h.offset⟩

theorem Store.Canonical.stageByte {s : Store} (h : s.Canonical) (b : Byte) : (s.stageByte b).Canonical := by
  refine ⟨h.page0, h.page1, Memory.wf_write h.offset h.buffer, ?_⟩
  simp only [Store.stageByte]
  split
  · next hlt => simp only [pageSize] at hlt ⊢; omega
  · exact h.offset

theorem Store.Canonical.setPage {s : Store} (h : s.Canonical) (p : Nat) {m : Memory} (w : m.wf = true) :
    (s.setPage p m).Canonical := by
  unfold Store.setPage
  split
  · exact ⟨w, h.page1, h.buffer, h.offset⟩
  · exact ⟨h.page0, w, h.buffer, h.offset⟩

theorem Store.Canonical.setMark {s : Store} (h : s.Canonical) (p : Nat) (b : Bool) : (s.setMark p b).Canonical := by
  unfold Store.setMark
  split <;> exact ⟨h.page0, h.page1, h.buffer, h.offset⟩

theorem Store.Canonical.withBusy {s : Store} (h : s.Canonical) (b : Option (StoreOp × Nat)) :
    ({ s with busy := b } : Store).Canonical := ⟨h.page0, h.page1, h.buffer, h.offset⟩

theorem Store.Canonical.start {s : Store} (h : s.Canonical) (op : StoreOp) (p : Nat) : (s.start op p).Canonical :=
  (h.setMark p true).withBusy _

theorem Store.wf_afterOp (s : Store) (op : StoreOp) (p : Nat) : (s.afterOp op p).wf = true := by
  cases op
  · rfl
  · exact Memory.wf_commit _ _

theorem Store.Canonical.complete {s : Store} (h : s.Canonical) (op : StoreOp) (p : Nat) :
    (s.complete op p).Canonical := by
  have done := ((h.setPage p (s.wf_afterOp op p)).setMark p false).withBusy none
  cases op
  · exact done
  · exact done.clearBuffer

theorem Store.Canonical.pinReset {s : Store} (h : s.Canonical) (n : Nat) : (s.pinReset n).Canonical := by
  unfold Store.pinReset
  split
  · exact h.clearBuffer
  · exact ((h.setPage _ (Memory.wf_abandoned _ _ _)).clearBuffer).withBusy none

/-- A STAGE within the offsets of R176 keeps the form. -/
theorem Store.Canonical.stage {s : Store} (h : s.Canonical) {start : Nat} (hs : start < pageSize ∨ start = stageContinue)
    (data : List Byte) : (s.stage start data).Canonical := by
  have first : (s.setStart start).Canonical := by
    unfold Store.setStart
    split
    · exact h
    · next hne => exact ⟨h.page0, h.page1, h.buffer, hs.resolve_right hne⟩
  unfold Store.stage
  generalize s.setStart start = t at first
  induction data generalizing t with
  | nil => exact first
  | cons b bs ih => exact ih _ (first.stageByte b)

@[simp] theorem Store.page_setPage (s : Store) (p : Nat) (m : Memory) : (s.setPage p m).page p = m := by
  unfold Store.setPage Store.page
  split <;> rfl

@[simp] theorem Store.mark_setMark (s : Store) (p : Nat) (b : Bool) : (s.setMark p b).mark p = b := by
  unfold Store.setMark Store.mark
  split <;> rfl

end Sys2Proof.Machine
end

