-- ==== Sys2Proof/Laws/State.lean ====
section
/-! SUPPORT. One lemma per field per named update of the station and of the state, each true by definition: a proof reads a
field after an update from these and unfolds no record update. -/

namespace Sys2Proof.Machine

/-! ## Updates of the station -/


@[simp] theorem Station.modifyEntry_mode (st : Station) (m : MoverId) (f : Entry → Entry) :
    (st.modifyEntry m f).mode = st.mode := rfl
@[simp] theorem Station.modifyEntry_record (st : Station) (m : MoverId) (f : Entry → Entry) :
    (st.modifyEntry m f).record = st.record := rfl
@[simp] theorem Station.modifyEntry_periodCount (st : Station) (m : MoverId) (f : Entry → Entry) :
    (st.modifyEntry m f).periodCount = st.periodCount := rfl
@[simp] theorem Station.modifyEntry_joinCount (st : Station) (m : MoverId) (f : Entry → Entry) :
    (st.modifyEntry m f).joinCount = st.joinCount := rfl
@[simp] theorem Station.modifyEntry_entries (st : Station) (m : MoverId) (f : Entry → Entry) :
    (st.modifyEntry m f).entries = st.entries.map fun e => if e.id = m then f e else e := rfl
@[simp] theorem Station.modifyEntry_zones (st : Station) (m : MoverId) (f : Entry → Entry) :
    (st.modifyEntry m f).zones = st.zones := rfl
@[simp] theorem Station.modifyEntry_lowerSide (st : Station) (m : MoverId) (f : Entry → Entry) :
    (st.modifyEntry m f).lowerSide = st.lowerSide := rfl
@[simp] theorem Station.modifyEntry_upperSide (st : Station) (m : MoverId) (f : Entry → Entry) :
    (st.modifyEntry m f).upperSide = st.upperSide := rfl
@[simp] theorem Station.modifyEntry_noticeDue (st : Station) (m : MoverId) (f : Entry → Entry) :
    (st.modifyEntry m f).noticeDue = st.noticeDue := rfl
@[simp] theorem Station.modifyEntry_joinPresentDue (st : Station) (m : MoverId) (f : Entry → Entry) :
    (st.modifyEntry m f).joinPresentDue = st.joinPresentDue := rfl
@[simp] theorem Station.modifyEntry_nextPlace (st : Station) (m : MoverId) (f : Entry → Entry) :
    (st.modifyEntry m f).nextPlace = st.nextPlace := rfl
@[simp] theorem Station.modifyEntry_attempt (st : Station) (m : MoverId) (f : Entry → Entry) :
    (st.modifyEntry m f).attempt = st.attempt := rfl
@[simp] theorem Station.modifyEntry_sendList (st : Station) (m : MoverId) (f : Entry → Entry) :
    (st.modifyEntry m f).sendList = st.sendList := rfl
@[simp] theorem Station.modifyEntry_rxQueue (st : Station) (m : MoverId) (f : Entry → Entry) :
    (st.modifyEntry m f).rxQueue = st.rxQueue := rfl
@[simp] theorem Station.modifyEntry_rxStalled (st : Station) (m : MoverId) (f : Entry → Entry) :
    (st.modifyEntry m f).rxStalled = st.rxStalled := rfl
@[simp] theorem Station.modifyEntry_linkCounters (st : Station) (m : MoverId) (f : Entry → Entry) :
    (st.modifyEntry m f).linkCounters = st.linkCounters := rfl
@[simp] theorem Station.modifyEntry_ackDriven (st : Station) (m : MoverId) (f : Entry → Entry) :
    (st.modifyEntry m f).ackDriven = st.ackDriven := rfl
@[simp] theorem Station.modifyEntry_orders (st : Station) (m : MoverId) (f : Entry → Entry) :
    (st.modifyEntry m f).orders = st.orders := rfl
@[simp] theorem Station.modifyEntry_nextTag (st : Station) (m : MoverId) (f : Entry → Entry) :
    (st.modifyEntry m f).nextTag = st.nextTag := rfl
@[simp] theorem Station.modifyEntry_watchMode (st : Station) (m : MoverId) (f : Entry → Entry) :
    (st.modifyEntry m f).watchMode = st.watchMode := rfl
@[simp] theorem Station.modifyEntry_watchList (st : Station) (m : MoverId) (f : Entry → Entry) :
    (st.modifyEntry m f).watchList = st.watchList := rfl
@[simp] theorem Station.modifyEntry_expectedScan (st : Station) (m : MoverId) (f : Entry → Entry) :
    (st.modifyEntry m f).expectedScan = st.expectedScan := rfl
@[simp] theorem Station.modifyEntry_sightingCounters (st : Station) (m : MoverId) (f : Entry → Entry) :
    (st.modifyEntry m f).sightingCounters = st.sightingCounters := rfl
@[simp] theorem Station.modifyEntry_drive (st : Station) (m : MoverId) (f : Entry → Entry) :
    (st.modifyEntry m f).drive = st.drive := rfl
@[simp] theorem Station.modifyEntry_latch (st : Station) (m : MoverId) (f : Entry → Entry) :
    (st.modifyEntry m f).latch = st.latch := rfl
@[simp] theorem Station.modifyEntry_overCurrent (st : Station) (m : MoverId) (f : Entry → Entry) :
    (st.modifyEntry m f).overCurrent = st.overCurrent := rfl
@[simp] theorem Station.modifyEntry_supplyLow (st : Station) (m : MoverId) (f : Entry → Entry) :
    (st.modifyEntry m f).supplyLow = st.supplyLow := rfl
@[simp] theorem Station.modifyEntry_pwm (st : Station) (m : MoverId) (f : Entry → Entry) :
    (st.modifyEntry m f).pwm = st.pwm := rfl
@[simp] theorem Station.modifyEntry_coils (st : Station) (m : MoverId) (f : Entry → Entry) :
    (st.modifyEntry m f).coils = st.coils := rfl
@[simp] theorem Station.modifyEntry_outbox (st : Station) (m : MoverId) (f : Entry → Entry) :
    (st.modifyEntry m f).outbox = st.outbox := rfl

@[simp] theorem Station.putEntry_mode (st : Station) (e : Entry) : (st.putEntry e).mode = st.mode := rfl
@[simp] theorem Station.putEntry_record (st : Station) (e : Entry) : (st.putEntry e).record = st.record := rfl
@[simp] theorem Station.putEntry_periodCount (st : Station) (e : Entry) :
    (st.putEntry e).periodCount = st.periodCount := rfl
@[simp] theorem Station.putEntry_joinCount (st : Station) (e : Entry) : (st.putEntry e).joinCount = st.joinCount := rfl
@[simp] theorem Station.putEntry_entries (st : Station) (e : Entry) :
    (st.putEntry e).entries = insertEntry e st.entries := rfl
@[simp] theorem Station.putEntry_zones (st : Station) (e : Entry) : (st.putEntry e).zones = st.zones := rfl
@[simp] theorem Station.putEntry_lowerSide (st : Station) (e : Entry) : (st.putEntry e).lowerSide = st.lowerSide := rfl
@[simp] theorem Station.putEntry_upperSide (st : Station) (e : Entry) : (st.putEntry e).upperSide = st.upperSide := rfl
@[simp] theorem Station.putEntry_noticeDue (st : Station) (e : Entry) : (st.putEntry e).noticeDue = st.noticeDue := rfl
@[simp] theorem Station.putEntry_joinPresentDue (st : Station) (e : Entry) :
    (st.putEntry e).joinPresentDue = st.joinPresentDue := rfl
@[simp] theorem Station.putEntry_nextPlace (st : Station) (e : Entry) : (st.putEntry e).nextPlace = st.nextPlace := rfl
@[simp] theorem Station.putEntry_attempt (st : Station) (e : Entry) : (st.putEntry e).attempt = st.attempt := rfl
@[simp] theorem Station.putEntry_sendList (st : Station) (e : Entry) : (st.putEntry e).sendList = st.sendList := rfl
@[simp] theorem Station.putEntry_rxQueue (st : Station) (e : Entry) : (st.putEntry e).rxQueue = st.rxQueue := rfl
@[simp] theorem Station.putEntry_rxStalled (st : Station) (e : Entry) : (st.putEntry e).rxStalled = st.rxStalled := rfl
@[simp] theorem Station.putEntry_linkCounters (st : Station) (e : Entry) :
    (st.putEntry e).linkCounters = st.linkCounters := rfl
@[simp] theorem Station.putEntry_ackDriven (st : Station) (e : Entry) : (st.putEntry e).ackDriven = st.ackDriven := rfl
@[simp] theorem Station.putEntry_orders (st : Station) (e : Entry) : (st.putEntry e).orders = st.orders := rfl
@[simp] theorem Station.putEntry_nextTag (st : Station) (e : Entry) : (st.putEntry e).nextTag = st.nextTag := rfl
@[simp] theorem Station.putEntry_watchMode (st : Station) (e : Entry) : (st.putEntry e).watchMode = st.watchMode := rfl
@[simp] theorem Station.putEntry_watchList (st : Station) (e : Entry) : (st.putEntry e).watchList = st.watchList := rfl
@[simp] theorem Station.putEntry_expectedScan (st : Station) (e : Entry) :
    (st.putEntry e).expectedScan = st.expectedScan := rfl
@[simp] theorem Station.putEntry_sightingCounters (st : Station) (e : Entry) :
    (st.putEntry e).sightingCounters = st.sightingCounters := rfl
@[simp] theorem Station.putEntry_drive (st : Station) (e : Entry) : (st.putEntry e).drive = st.drive := rfl
@[simp] theorem Station.putEntry_latch (st : Station) (e : Entry) : (st.putEntry e).latch = st.latch := rfl
@[simp] theorem Station.putEntry_overCurrent (st : Station) (e : Entry) :
    (st.putEntry e).overCurrent = st.overCurrent := rfl
@[simp] theorem Station.putEntry_supplyLow (st : Station) (e : Entry) : (st.putEntry e).supplyLow = st.supplyLow := rfl
@[simp] theorem Station.putEntry_pwm (st : Station) (e : Entry) : (st.putEntry e).pwm = st.pwm := rfl
@[simp] theorem Station.putEntry_coils (st : Station) (e : Entry) : (st.putEntry e).coils = st.coils := rfl
@[simp] theorem Station.putEntry_outbox (st : Station) (e : Entry) : (st.putEntry e).outbox = st.outbox := rfl

@[simp] theorem Station.eraseEntry_mode (st : Station) (m : MoverId) : (st.eraseEntry m).mode = st.mode := rfl
@[simp] theorem Station.eraseEntry_record (st : Station) (m : MoverId) : (st.eraseEntry m).record = st.record := rfl
@[simp] theorem Station.eraseEntry_periodCount (st : Station) (m : MoverId) :
    (st.eraseEntry m).periodCount = st.periodCount := rfl
@[simp] theorem Station.eraseEntry_joinCount (st : Station) (m : MoverId) :
    (st.eraseEntry m).joinCount = st.joinCount := rfl
@[simp] theorem Station.eraseEntry_entries (st : Station) (m : MoverId) :
    (st.eraseEntry m).entries = st.entries.filter (·.id ≠ m) := rfl
@[simp] theorem Station.eraseEntry_zones (st : Station) (m : MoverId) : (st.eraseEntry m).zones = st.zones := rfl
@[simp] theorem Station.eraseEntry_lowerSide (st : Station) (m : MoverId) :
    (st.eraseEntry m).lowerSide = st.lowerSide := rfl
@[simp] theorem Station.eraseEntry_upperSide (st : Station) (m : MoverId) :
    (st.eraseEntry m).upperSide = st.upperSide := rfl
@[simp] theorem Station.eraseEntry_noticeDue (st : Station) (m : MoverId) :
    (st.eraseEntry m).noticeDue = st.noticeDue := rfl
@[simp] theorem Station.eraseEntry_joinPresentDue (st : Station) (m : MoverId) :
    (st.eraseEntry m).joinPresentDue = st.joinPresentDue := rfl
@[simp] theorem Station.eraseEntry_nextPlace (st : Station) (m : MoverId) :
    (st.eraseEntry m).nextPlace = st.nextPlace := rfl
@[simp] theorem Station.eraseEntry_attempt (st : Station) (m : MoverId) : (st.eraseEntry m).attempt = st.attempt := rfl
@[simp] theorem Station.eraseEntry_sendList (st : Station) (m : MoverId) :
    (st.eraseEntry m).sendList = st.sendList := rfl
@[simp] theorem Station.eraseEntry_rxQueue (st : Station) (m : MoverId) : (st.eraseEntry m).rxQueue = st.rxQueue := rfl
@[simp] theorem Station.eraseEntry_rxStalled (st : Station) (m : MoverId) :
    (st.eraseEntry m).rxStalled = st.rxStalled := rfl
@[simp] theorem Station.eraseEntry_linkCounters (st : Station) (m : MoverId) :
    (st.eraseEntry m).linkCounters = st.linkCounters := rfl
@[simp] theorem Station.eraseEntry_ackDriven (st : Station) (m : MoverId) :
    (st.eraseEntry m).ackDriven = st.ackDriven := rfl
@[simp] theorem Station.eraseEntry_orders (st : Station) (m : MoverId) : (st.eraseEntry m).orders = st.orders := rfl
@[simp] theorem Station.eraseEntry_nextTag (st : Station) (m : MoverId) : (st.eraseEntry m).nextTag = st.nextTag := rfl
@[simp] theorem Station.eraseEntry_watchMode (st : Station) (m : MoverId) :
    (st.eraseEntry m).watchMode = st.watchMode := rfl
@[simp] theorem Station.eraseEntry_watchList (st : Station) (m : MoverId) :
    (st.eraseEntry m).watchList = st.watchList := rfl
@[simp] theorem Station.eraseEntry_expectedScan (st : Station) (m : MoverId) :
    (st.eraseEntry m).expectedScan = st.expectedScan := rfl
@[simp] theorem Station.eraseEntry_sightingCounters (st : Station) (m : MoverId) :
    (st.eraseEntry m).sightingCounters = st.sightingCounters := rfl
@[simp] theorem Station.eraseEntry_drive (st : Station) (m : MoverId) : (st.eraseEntry m).drive = st.drive := rfl
@[simp] theorem Station.eraseEntry_latch (st : Station) (m : MoverId) : (st.eraseEntry m).latch = st.latch := rfl
@[simp] theorem Station.eraseEntry_overCurrent (st : Station) (m : MoverId) :
    (st.eraseEntry m).overCurrent = st.overCurrent := rfl
@[simp] theorem Station.eraseEntry_supplyLow (st : Station) (m : MoverId) :
    (st.eraseEntry m).supplyLow = st.supplyLow := rfl
@[simp] theorem Station.eraseEntry_pwm (st : Station) (m : MoverId) : (st.eraseEntry m).pwm = st.pwm := rfl
@[simp] theorem Station.eraseEntry_coils (st : Station) (m : MoverId) : (st.eraseEntry m).coils = st.coils := rfl
@[simp] theorem Station.eraseEntry_outbox (st : Station) (m : MoverId) : (st.eraseEntry m).outbox = st.outbox := rfl

@[simp] theorem Station.modifyZone_mode (st : Station) (k : Nat) (f : Zone → Zone) :
    (st.modifyZone k f).mode = st.mode := rfl
@[simp] theorem Station.modifyZone_record (st : Station) (k : Nat) (f : Zone → Zone) :
    (st.modifyZone k f).record = st.record := rfl
@[simp] theorem Station.modifyZone_periodCount (st : Station) (k : Nat) (f : Zone → Zone) :
    (st.modifyZone k f).periodCount = st.periodCount := rfl
@[simp] theorem Station.modifyZone_joinCount (st : Station) (k : Nat) (f : Zone → Zone) :
    (st.modifyZone k f).joinCount = st.joinCount := rfl
@[simp] theorem Station.modifyZone_entries (st : Station) (k : Nat) (f : Zone → Zone) :
    (st.modifyZone k f).entries = st.entries := rfl
@[simp] theorem Station.modifyZone_zones (st : Station) (k : Nat) (f : Zone → Zone) :
    (st.modifyZone k f).zones = st.zones.modify k f := rfl
@[simp] theorem Station.modifyZone_lowerSide (st : Station) (k : Nat) (f : Zone → Zone) :
    (st.modifyZone k f).lowerSide = st.lowerSide := rfl
@[simp] theorem Station.modifyZone_upperSide (st : Station) (k : Nat) (f : Zone → Zone) :
    (st.modifyZone k f).upperSide = st.upperSide := rfl
@[simp] theorem Station.modifyZone_noticeDue (st : Station) (k : Nat) (f : Zone → Zone) :
    (st.modifyZone k f).noticeDue = st.noticeDue := rfl
@[simp] theorem Station.modifyZone_joinPresentDue (st : Station) (k : Nat) (f : Zone → Zone) :
    (st.modifyZone k f).joinPresentDue = st.joinPresentDue := rfl
@[simp] theorem Station.modifyZone_nextPlace (st : Station) (k : Nat) (f : Zone → Zone) :
    (st.modifyZone k f).nextPlace = st.nextPlace := rfl
@[simp] theorem Station.modifyZone_attempt (st : Station) (k : Nat) (f : Zone → Zone) :
    (st.modifyZone k f).attempt = st.attempt := rfl
@[simp] theorem Station.modifyZone_sendList (st : Station) (k : Nat) (f : Zone → Zone) :
    (st.modifyZone k f).sendList = st.sendList := rfl
@[simp] theorem Station.modifyZone_rxQueue (st : Station) (k : Nat) (f : Zone → Zone) :
    (st.modifyZone k f).rxQueue = st.rxQueue := rfl
@[simp] theorem Station.modifyZone_rxStalled (st : Station) (k : Nat) (f : Zone → Zone) :
    (st.modifyZone k f).rxStalled = st.rxStalled := rfl
@[simp] theorem Station.modifyZone_linkCounters (st : Station) (k : Nat) (f : Zone → Zone) :
    (st.modifyZone k f).linkCounters = st.linkCounters := rfl
@[simp] theorem Station.modifyZone_ackDriven (st : Station) (k : Nat) (f : Zone → Zone) :
    (st.modifyZone k f).ackDriven = st.ackDriven := rfl
@[simp] theorem Station.modifyZone_orders (st : Station) (k : Nat) (f : Zone → Zone) :
    (st.modifyZone k f).orders = st.orders := rfl
@[simp] theorem Station.modifyZone_nextTag (st : Station) (k : Nat) (f : Zone → Zone) :
    (st.modifyZone k f).nextTag = st.nextTag := rfl
@[simp] theorem Station.modifyZone_watchMode (st : Station) (k : Nat) (f : Zone → Zone) :
    (st.modifyZone k f).watchMode = st.watchMode := rfl
@[simp] theorem Station.modifyZone_watchList (st : Station) (k : Nat) (f : Zone → Zone) :
    (st.modifyZone k f).watchList = st.watchList := rfl
@[simp] theorem Station.modifyZone_expectedScan (st : Station) (k : Nat) (f : Zone → Zone) :
    (st.modifyZone k f).expectedScan = st.expectedScan := rfl
@[simp] theorem Station.modifyZone_sightingCounters (st : Station) (k : Nat) (f : Zone → Zone) :
    (st.modifyZone k f).sightingCounters = st.sightingCounters := rfl
@[simp] theorem Station.modifyZone_drive (st : Station) (k : Nat) (f : Zone → Zone) :
    (st.modifyZone k f).drive = st.drive := rfl
@[simp] theorem Station.modifyZone_latch (st : Station) (k : Nat) (f : Zone → Zone) :
    (st.modifyZone k f).latch = st.latch := rfl
@[simp] theorem Station.modifyZone_overCurrent (st : Station) (k : Nat) (f : Zone → Zone) :
    (st.modifyZone k f).overCurrent = st.overCurrent := rfl
@[simp] theorem Station.modifyZone_supplyLow (st : Station) (k : Nat) (f : Zone → Zone) :
    (st.modifyZone k f).supplyLow = st.supplyLow := rfl
@[simp] theorem Station.modifyZone_pwm (st : Station) (k : Nat) (f : Zone → Zone) :
    (st.modifyZone k f).pwm = st.pwm := rfl
@[simp] theorem Station.modifyZone_coils (st : Station) (k : Nat) (f : Zone → Zone) :
    (st.modifyZone k f).coils = st.coils := rfl
@[simp] theorem Station.modifyZone_outbox (st : Station) (k : Nat) (f : Zone → Zone) :
    (st.modifyZone k f).outbox = st.outbox := rfl

@[simp] theorem Station.bump_mode (st : Station) : st.bump.mode = st.mode := rfl
@[simp] theorem Station.bump_record (st : Station) : st.bump.record = st.record := rfl
@[simp] theorem Station.bump_periodCount (st : Station) : st.bump.periodCount = st.periodCount := rfl
@[simp] theorem Station.bump_joinCount (st : Station) : st.bump.joinCount = st.joinCount := rfl
@[simp] theorem Station.bump_entries (st : Station) : st.bump.entries = st.entries := rfl
@[simp] theorem Station.bump_zones (st : Station) : st.bump.zones = st.zones := rfl
@[simp] theorem Station.bump_lowerSide (st : Station) : st.bump.lowerSide = st.lowerSide := rfl
@[simp] theorem Station.bump_upperSide (st : Station) : st.bump.upperSide = st.upperSide := rfl
@[simp] theorem Station.bump_noticeDue (st : Station) : st.bump.noticeDue = st.noticeDue := rfl
@[simp] theorem Station.bump_joinPresentDue (st : Station) : st.bump.joinPresentDue = st.joinPresentDue := rfl
@[simp] theorem Station.bump_nextPlace (st : Station) : st.bump.nextPlace = st.nextPlace + 1 := rfl
@[simp] theorem Station.bump_attempt (st : Station) : st.bump.attempt = st.attempt := rfl
@[simp] theorem Station.bump_sendList (st : Station) : st.bump.sendList = st.sendList := rfl
@[simp] theorem Station.bump_rxQueue (st : Station) : st.bump.rxQueue = st.rxQueue := rfl
@[simp] theorem Station.bump_rxStalled (st : Station) : st.bump.rxStalled = st.rxStalled := rfl
@[simp] theorem Station.bump_linkCounters (st : Station) : st.bump.linkCounters = st.linkCounters := rfl
@[simp] theorem Station.bump_ackDriven (st : Station) : st.bump.ackDriven = st.ackDriven := rfl
@[simp] theorem Station.bump_orders (st : Station) : st.bump.orders = st.orders := rfl
@[simp] theorem Station.bump_nextTag (st : Station) : st.bump.nextTag = st.nextTag := rfl
@[simp] theorem Station.bump_watchMode (st : Station) : st.bump.watchMode = st.watchMode := rfl
@[simp] theorem Station.bump_watchList (st : Station) : st.bump.watchList = st.watchList := rfl
@[simp] theorem Station.bump_expectedScan (st : Station) : st.bump.expectedScan = st.expectedScan := rfl
@[simp] theorem Station.bump_sightingCounters (st : Station) : st.bump.sightingCounters = st.sightingCounters := rfl
@[simp] theorem Station.bump_drive (st : Station) : st.bump.drive = st.drive := rfl
@[simp] theorem Station.bump_latch (st : Station) : st.bump.latch = st.latch := rfl
@[simp] theorem Station.bump_overCurrent (st : Station) : st.bump.overCurrent = st.overCurrent := rfl
@[simp] theorem Station.bump_supplyLow (st : Station) : st.bump.supplyLow = st.supplyLow := rfl
@[simp] theorem Station.bump_pwm (st : Station) : st.bump.pwm = st.pwm := rfl
@[simp] theorem Station.bump_coils (st : Station) : st.bump.coils = st.coils := rfl
@[simp] theorem Station.bump_outbox (st : Station) : st.bump.outbox = st.outbox := rfl

@[simp] theorem Station.report_mode (st : Station) (b : ReportBody) : (st.report b).mode = st.mode := rfl
@[simp] theorem Station.report_record (st : Station) (b : ReportBody) : (st.report b).record = st.record := rfl
@[simp] theorem Station.report_periodCount (st : Station) (b : ReportBody) :
    (st.report b).periodCount = st.periodCount := rfl
@[simp] theorem Station.report_joinCount (st : Station) (b : ReportBody) : (st.report b).joinCount = st.joinCount := rfl
@[simp] theorem Station.report_entries (st : Station) (b : ReportBody) : (st.report b).entries = st.entries := rfl
@[simp] theorem Station.report_zones (st : Station) (b : ReportBody) : (st.report b).zones = st.zones := rfl
@[simp] theorem Station.report_lowerSide (st : Station) (b : ReportBody) : (st.report b).lowerSide = st.lowerSide := rfl
@[simp] theorem Station.report_upperSide (st : Station) (b : ReportBody) : (st.report b).upperSide = st.upperSide := rfl
@[simp] theorem Station.report_noticeDue (st : Station) (b : ReportBody) : (st.report b).noticeDue = st.noticeDue := rfl
@[simp] theorem Station.report_joinPresentDue (st : Station) (b : ReportBody) :
    (st.report b).joinPresentDue = st.joinPresentDue := rfl
@[simp] theorem Station.report_nextPlace (st : Station) (b : ReportBody) : (st.report b).nextPlace = st.nextPlace := rfl
@[simp] theorem Station.report_attempt (st : Station) (b : ReportBody) : (st.report b).attempt = st.attempt := rfl
@[simp] theorem Station.report_sendList (st : Station) (b : ReportBody) : (st.report b).sendList = st.sendList := rfl
@[simp] theorem Station.report_rxQueue (st : Station) (b : ReportBody) : (st.report b).rxQueue = st.rxQueue := rfl
@[simp] theorem Station.report_rxStalled (st : Station) (b : ReportBody) : (st.report b).rxStalled = st.rxStalled := rfl
@[simp] theorem Station.report_linkCounters (st : Station) (b : ReportBody) :
    (st.report b).linkCounters = st.linkCounters := rfl
@[simp] theorem Station.report_ackDriven (st : Station) (b : ReportBody) : (st.report b).ackDriven = st.ackDriven := rfl
@[simp] theorem Station.report_orders (st : Station) (b : ReportBody) : (st.report b).orders = st.orders := rfl
@[simp] theorem Station.report_nextTag (st : Station) (b : ReportBody) : (st.report b).nextTag = st.nextTag := rfl
@[simp] theorem Station.report_watchMode (st : Station) (b : ReportBody) : (st.report b).watchMode = st.watchMode := rfl
@[simp] theorem Station.report_watchList (st : Station) (b : ReportBody) : (st.report b).watchList = st.watchList := rfl
@[simp] theorem Station.report_expectedScan (st : Station) (b : ReportBody) :
    (st.report b).expectedScan = st.expectedScan := rfl
@[simp] theorem Station.report_sightingCounters (st : Station) (b : ReportBody) :
    (st.report b).sightingCounters = st.sightingCounters := rfl
@[simp] theorem Station.report_drive (st : Station) (b : ReportBody) : (st.report b).drive = st.drive := rfl
@[simp] theorem Station.report_latch (st : Station) (b : ReportBody) : (st.report b).latch = st.latch := rfl
@[simp] theorem Station.report_overCurrent (st : Station) (b : ReportBody) :
    (st.report b).overCurrent = st.overCurrent := rfl
@[simp] theorem Station.report_supplyLow (st : Station) (b : ReportBody) : (st.report b).supplyLow = st.supplyLow := rfl
@[simp] theorem Station.report_pwm (st : Station) (b : ReportBody) : (st.report b).pwm = st.pwm := rfl
@[simp] theorem Station.report_coils (st : Station) (b : ReportBody) : (st.report b).coils = st.coils := rfl
@[simp] theorem Station.report_outbox (st : Station) (b : ReportBody) : (st.report b).outbox = st.outbox ++ [b] := rfl

@[simp] theorem Station.countLink_mode (st : Station) (f : LinkCounters → LinkCounters) :
    (st.countLink f).mode = st.mode := rfl
@[simp] theorem Station.countLink_record (st : Station) (f : LinkCounters → LinkCounters) :
    (st.countLink f).record = st.record := rfl
@[simp] theorem Station.countLink_periodCount (st : Station) (f : LinkCounters → LinkCounters) :
    (st.countLink f).periodCount = st.periodCount := rfl
@[simp] theorem Station.countLink_joinCount (st : Station) (f : LinkCounters → LinkCounters) :
    (st.countLink f).joinCount = st.joinCount := rfl
@[simp] theorem Station.countLink_entries (st : Station) (f : LinkCounters → LinkCounters) :
    (st.countLink f).entries = st.entries := rfl
@[simp] theorem Station.countLink_zones (st : Station) (f : LinkCounters → LinkCounters) :
    (st.countLink f).zones = st.zones := rfl
@[simp] theorem Station.countLink_lowerSide (st : Station) (f : LinkCounters → LinkCounters) :
    (st.countLink f).lowerSide = st.lowerSide := rfl
@[simp] theorem Station.countLink_upperSide (st : Station) (f : LinkCounters → LinkCounters) :
    (st.countLink f).upperSide = st.upperSide := rfl
@[simp] theorem Station.countLink_noticeDue (st : Station) (f : LinkCounters → LinkCounters) :
    (st.countLink f).noticeDue = st.noticeDue := rfl
@[simp] theorem Station.countLink_joinPresentDue (st : Station) (f : LinkCounters → LinkCounters) :
    (st.countLink f).joinPresentDue = st.joinPresentDue := rfl
@[simp] theorem Station.countLink_nextPlace (st : Station) (f : LinkCounters → LinkCounters) :
    (st.countLink f).nextPlace = st.nextPlace := rfl
@[simp] theorem Station.countLink_attempt (st : Station) (f : LinkCounters → LinkCounters) :
    (st.countLink f).attempt = st.attempt := rfl
@[simp] theorem Station.countLink_sendList (st : Station) (f : LinkCounters → LinkCounters) :
    (st.countLink f).sendList = st.sendList := rfl
@[simp] theorem Station.countLink_rxQueue (st : Station) (f : LinkCounters → LinkCounters) :
    (st.countLink f).rxQueue = st.rxQueue := rfl
@[simp] theorem Station.countLink_rxStalled (st : Station) (f : LinkCounters → LinkCounters) :
    (st.countLink f).rxStalled = st.rxStalled := rfl
@[simp] theorem Station.countLink_linkCounters (st : Station) (f : LinkCounters → LinkCounters) :
    (st.countLink f).linkCounters = f st.linkCounters := rfl
@[simp] theorem Station.countLink_ackDriven (st : Station) (f : LinkCounters → LinkCounters) :
    (st.countLink f).ackDriven = st.ackDriven := rfl
@[simp] theorem Station.countLink_orders (st : Station) (f : LinkCounters → LinkCounters) :
    (st.countLink f).orders = st.orders := rfl
@[simp] theorem Station.countLink_nextTag (st : Station) (f : LinkCounters → LinkCounters) :
    (st.countLink f).nextTag = st.nextTag := rfl
@[simp] theorem Station.countLink_watchMode (st : Station) (f : LinkCounters → LinkCounters) :
    (st.countLink f).watchMode = st.watchMode := rfl
@[simp] theorem Station.countLink_watchList (st : Station) (f : LinkCounters → LinkCounters) :
    (st.countLink f).watchList = st.watchList := rfl
@[simp] theorem Station.countLink_expectedScan (st : Station) (f : LinkCounters → LinkCounters) :
    (st.countLink f).expectedScan = st.expectedScan := rfl
@[simp] theorem Station.countLink_sightingCounters (st : Station) (f : LinkCounters → LinkCounters) :
    (st.countLink f).sightingCounters = st.sightingCounters := rfl
@[simp] theorem Station.countLink_drive (st : Station) (f : LinkCounters → LinkCounters) :
    (st.countLink f).drive = st.drive := rfl
@[simp] theorem Station.countLink_latch (st : Station) (f : LinkCounters → LinkCounters) :
    (st.countLink f).latch = st.latch := rfl
@[simp] theorem Station.countLink_overCurrent (st : Station) (f : LinkCounters → LinkCounters) :
    (st.countLink f).overCurrent = st.overCurrent := rfl
@[simp] theorem Station.countLink_supplyLow (st : Station) (f : LinkCounters → LinkCounters) :
    (st.countLink f).supplyLow = st.supplyLow := rfl
@[simp] theorem Station.countLink_pwm (st : Station) (f : LinkCounters → LinkCounters) :
    (st.countLink f).pwm = st.pwm := rfl
@[simp] theorem Station.countLink_coils (st : Station) (f : LinkCounters → LinkCounters) :
    (st.countLink f).coils = st.coils := rfl
@[simp] theorem Station.countLink_outbox (st : Station) (f : LinkCounters → LinkCounters) :
    (st.countLink f).outbox = st.outbox := rfl

@[simp] theorem Station.unassignCoil_mode (st : Station) (k : Nat) : (st.unassignCoil k).mode = st.mode := rfl
@[simp] theorem Station.unassignCoil_record (st : Station) (k : Nat) : (st.unassignCoil k).record = st.record := rfl
@[simp] theorem Station.unassignCoil_periodCount (st : Station) (k : Nat) :
    (st.unassignCoil k).periodCount = st.periodCount := rfl
@[simp] theorem Station.unassignCoil_joinCount (st : Station) (k : Nat) :
    (st.unassignCoil k).joinCount = st.joinCount := rfl
@[simp] theorem Station.unassignCoil_entries (st : Station) (k : Nat) : (st.unassignCoil k).entries = st.entries := rfl
@[simp] theorem Station.unassignCoil_zones (st : Station) (k : Nat) : (st.unassignCoil k).zones = st.zones := rfl
@[simp] theorem Station.unassignCoil_lowerSide (st : Station) (k : Nat) :
    (st.unassignCoil k).lowerSide = st.lowerSide := rfl
@[simp] theorem Station.unassignCoil_upperSide (st : Station) (k : Nat) :
    (st.unassignCoil k).upperSide = st.upperSide := rfl
@[simp] theorem Station.unassignCoil_noticeDue (st : Station) (k : Nat) :
    (st.unassignCoil k).noticeDue = st.noticeDue := rfl
@[simp] theorem Station.unassignCoil_joinPresentDue (st : Station) (k : Nat) :
    (st.unassignCoil k).joinPresentDue = st.joinPresentDue := rfl
@[simp] theorem Station.unassignCoil_nextPlace (st : Station) (k : Nat) :
    (st.unassignCoil k).nextPlace = st.nextPlace := rfl
@[simp] theorem Station.unassignCoil_attempt (st : Station) (k : Nat) : (st.unassignCoil k).attempt = st.attempt := rfl
@[simp] theorem Station.unassignCoil_sendList (st : Station) (k : Nat) :
    (st.unassignCoil k).sendList = st.sendList := rfl
@[simp] theorem Station.unassignCoil_rxQueue (st : Station) (k : Nat) : (st.unassignCoil k).rxQueue = st.rxQueue := rfl
@[simp] theorem Station.unassignCoil_rxStalled (st : Station) (k : Nat) :
    (st.unassignCoil k).rxStalled = st.rxStalled := rfl
@[simp] theorem Station.unassignCoil_linkCounters (st : Station) (k : Nat) :
    (st.unassignCoil k).linkCounters = st.linkCounters := rfl
@[simp] theorem Station.unassignCoil_ackDriven (st : Station) (k : Nat) :
    (st.unassignCoil k).ackDriven = st.ackDriven := rfl
@[simp] theorem Station.unassignCoil_orders (st : Station) (k : Nat) : (st.unassignCoil k).orders = st.orders := rfl
@[simp] theorem Station.unassignCoil_nextTag (st : Station) (k : Nat) : (st.unassignCoil k).nextTag = st.nextTag := rfl
@[simp] theorem Station.unassignCoil_watchMode (st : Station) (k : Nat) :
    (st.unassignCoil k).watchMode = st.watchMode := rfl
@[simp] theorem Station.unassignCoil_watchList (st : Station) (k : Nat) :
    (st.unassignCoil k).watchList = st.watchList := rfl
@[simp] theorem Station.unassignCoil_expectedScan (st : Station) (k : Nat) :
    (st.unassignCoil k).expectedScan = st.expectedScan := rfl
@[simp] theorem Station.unassignCoil_sightingCounters (st : Station) (k : Nat) :
    (st.unassignCoil k).sightingCounters = st.sightingCounters := rfl
@[simp] theorem Station.unassignCoil_drive (st : Station) (k : Nat) : (st.unassignCoil k).drive = st.drive := rfl
@[simp] theorem Station.unassignCoil_latch (st : Station) (k : Nat) : (st.unassignCoil k).latch = st.latch := rfl
@[simp] theorem Station.unassignCoil_overCurrent (st : Station) (k : Nat) :
    (st.unassignCoil k).overCurrent = st.overCurrent := rfl
@[simp] theorem Station.unassignCoil_supplyLow (st : Station) (k : Nat) :
    (st.unassignCoil k).supplyLow = st.supplyLow := rfl
@[simp] theorem Station.unassignCoil_pwm (st : Station) (k : Nat) : (st.unassignCoil k).pwm = st.pwm := rfl
@[simp] theorem Station.unassignCoil_coils (st : Station) (k : Nat) :
    (st.unassignCoil k).coils = st.coils.modify k Coil.unassign := rfl
@[simp] theorem Station.unassignCoil_outbox (st : Station) (k : Nat) : (st.unassignCoil k).outbox = st.outbox := rfl

@[simp] theorem Station.refreshOutputs_mode (st : Station) : st.refreshOutputs.mode = st.mode := rfl
@[simp] theorem Station.refreshOutputs_record (st : Station) : st.refreshOutputs.record = st.record := rfl
@[simp] theorem Station.refreshOutputs_periodCount (st : Station) :
    st.refreshOutputs.periodCount = st.periodCount := rfl
@[simp] theorem Station.refreshOutputs_joinCount (st : Station) : st.refreshOutputs.joinCount = st.joinCount := rfl
@[simp] theorem Station.refreshOutputs_entries (st : Station) : st.refreshOutputs.entries = st.entries := rfl
@[simp] theorem Station.refreshOutputs_zones (st : Station) : st.refreshOutputs.zones = st.zones := rfl
@[simp] theorem Station.refreshOutputs_lowerSide (st : Station) : st.refreshOutputs.lowerSide = st.lowerSide := rfl
@[simp] theorem Station.refreshOutputs_upperSide (st : Station) : st.refreshOutputs.upperSide = st.upperSide := rfl
@[simp] theorem Station.refreshOutputs_noticeDue (st : Station) : st.refreshOutputs.noticeDue = st.noticeDue := rfl
@[simp] theorem Station.refreshOutputs_joinPresentDue (st : Station) :
    st.refreshOutputs.joinPresentDue = st.joinPresentDue := rfl
@[simp] theorem Station.refreshOutputs_nextPlace (st : Station) : st.refreshOutputs.nextPlace = st.nextPlace := rfl
@[simp] theorem Station.refreshOutputs_attempt (st : Station) : st.refreshOutputs.attempt = st.attempt := rfl
@[simp] theorem Station.refreshOutputs_sendList (st : Station) : st.refreshOutputs.sendList = st.sendList := rfl
@[simp] theorem Station.refreshOutputs_rxQueue (st : Station) : st.refreshOutputs.rxQueue = st.rxQueue := rfl
@[simp] theorem Station.refreshOutputs_rxStalled (st : Station) : st.refreshOutputs.rxStalled = st.rxStalled := rfl
@[simp] theorem Station.refreshOutputs_linkCounters (st : Station) :
    st.refreshOutputs.linkCounters = st.linkCounters := rfl
@[simp] theorem Station.refreshOutputs_ackDriven (st : Station) : st.refreshOutputs.ackDriven = st.ackDriven := rfl
@[simp] theorem Station.refreshOutputs_orders (st : Station) : st.refreshOutputs.orders = st.orders := rfl
@[simp] theorem Station.refreshOutputs_nextTag (st : Station) : st.refreshOutputs.nextTag = st.nextTag := rfl
@[simp] theorem Station.refreshOutputs_watchMode (st : Station) : st.refreshOutputs.watchMode = st.watchMode := rfl
@[simp] theorem Station.refreshOutputs_watchList (st : Station) : st.refreshOutputs.watchList = st.watchList := rfl
@[simp] theorem Station.refreshOutputs_expectedScan (st : Station) :
    st.refreshOutputs.expectedScan = st.expectedScan := rfl
@[simp] theorem Station.refreshOutputs_sightingCounters (st : Station) :
    st.refreshOutputs.sightingCounters = st.sightingCounters := rfl
@[simp] theorem Station.refreshOutputs_drive (st : Station) : st.refreshOutputs.drive = st.drive := rfl
@[simp] theorem Station.refreshOutputs_latch (st : Station) : st.refreshOutputs.latch = st.latch := rfl
@[simp] theorem Station.refreshOutputs_overCurrent (st : Station) :
    st.refreshOutputs.overCurrent = st.overCurrent := rfl
@[simp] theorem Station.refreshOutputs_supplyLow (st : Station) : st.refreshOutputs.supplyLow = st.supplyLow := rfl
@[simp] theorem Station.refreshOutputs_pwm (st : Station) : st.refreshOutputs.pwm = st.pwm := rfl
@[simp] theorem Station.refreshOutputs_coils (st : Station) :
    st.refreshOutputs.coils = st.coils.mapIdx fun k c => c.follow st.deadtimeNow (st.request k c) := rfl
@[simp] theorem Station.refreshOutputs_outbox (st : Station) : st.refreshOutputs.outbox = st.outbox := rfl

@[simp] theorem Station.raisedAgain_mode (st : Station) (place : Nat) : (st.raisedAgain place).mode = st.mode := rfl
@[simp] theorem Station.raisedAgain_record (st : Station) (place : Nat) :
    (st.raisedAgain place).record = st.record := rfl
@[simp] theorem Station.raisedAgain_periodCount (st : Station) (place : Nat) :
    (st.raisedAgain place).periodCount = st.periodCount := rfl
@[simp] theorem Station.raisedAgain_joinCount (st : Station) (place : Nat) :
    (st.raisedAgain place).joinCount = st.joinCount := rfl
@[simp] theorem Station.raisedAgain_entries (st : Station) (place : Nat) :
    (st.raisedAgain place).entries = st.entries := rfl
@[simp] theorem Station.raisedAgain_zones (st : Station) (place : Nat) : (st.raisedAgain place).zones = st.zones := rfl
@[simp] theorem Station.raisedAgain_lowerSide (st : Station) (place : Nat) :
    (st.raisedAgain place).lowerSide = st.lowerSide := rfl
@[simp] theorem Station.raisedAgain_upperSide (st : Station) (place : Nat) :
    (st.raisedAgain place).upperSide = st.upperSide := rfl
@[simp] theorem Station.raisedAgain_noticeDue (st : Station) (place : Nat) :
    (st.raisedAgain place).noticeDue = st.noticeDue := rfl
@[simp] theorem Station.raisedAgain_joinPresentDue (st : Station) (place : Nat) :
    (st.raisedAgain place).joinPresentDue = st.joinPresentDue := rfl
@[simp] theorem Station.raisedAgain_nextPlace (st : Station) (place : Nat) :
    (st.raisedAgain place).nextPlace = st.nextPlace := rfl
@[simp] theorem Station.raisedAgain_attempt (st : Station) (place : Nat) :
    (st.raisedAgain place).attempt = st.attempt.map fun a => if a.place = place then { a with raisedAgain := true } else a := rfl
@[simp] theorem Station.raisedAgain_sendList (st : Station) (place : Nat) :
    (st.raisedAgain place).sendList = st.sendList := rfl
@[simp] theorem Station.raisedAgain_rxQueue (st : Station) (place : Nat) :
    (st.raisedAgain place).rxQueue = st.rxQueue := rfl
@[simp] theorem Station.raisedAgain_rxStalled (st : Station) (place : Nat) :
    (st.raisedAgain place).rxStalled = st.rxStalled := rfl
@[simp] theorem Station.raisedAgain_linkCounters (st : Station) (place : Nat) :
    (st.raisedAgain place).linkCounters = st.linkCounters := rfl
@[simp] theorem Station.raisedAgain_ackDriven (st : Station) (place : Nat) :
    (st.raisedAgain place).ackDriven = st.ackDriven := rfl
@[simp] theorem Station.raisedAgain_orders (st : Station) (place : Nat) :
    (st.raisedAgain place).orders = st.orders := rfl
@[simp] theorem Station.raisedAgain_nextTag (st : Station) (place : Nat) :
    (st.raisedAgain place).nextTag = st.nextTag := rfl
@[simp] theorem Station.raisedAgain_watchMode (st : Station) (place : Nat) :
    (st.raisedAgain place).watchMode = st.watchMode := rfl
@[simp] theorem Station.raisedAgain_watchList (st : Station) (place : Nat) :
    (st.raisedAgain place).watchList = st.watchList := rfl
@[simp] theorem Station.raisedAgain_expectedScan (st : Station) (place : Nat) :
    (st.raisedAgain place).expectedScan = st.expectedScan := rfl
@[simp] theorem Station.raisedAgain_sightingCounters (st : Station) (place : Nat) :
    (st.raisedAgain place).sightingCounters = st.sightingCounters := rfl
@[simp] theorem Station.raisedAgain_drive (st : Station) (place : Nat) : (st.raisedAgain place).drive = st.drive := rfl
@[simp] theorem Station.raisedAgain_latch (st : Station) (place : Nat) : (st.raisedAgain place).latch = st.latch := rfl
@[simp] theorem Station.raisedAgain_overCurrent (st : Station) (place : Nat) :
    (st.raisedAgain place).overCurrent = st.overCurrent := rfl
@[simp] theorem Station.raisedAgain_supplyLow (st : Station) (place : Nat) :
    (st.raisedAgain place).supplyLow = st.supplyLow := rfl
@[simp] theorem Station.raisedAgain_pwm (st : Station) (place : Nat) : (st.raisedAgain place).pwm = st.pwm := rfl
@[simp] theorem Station.raisedAgain_coils (st : Station) (place : Nat) : (st.raisedAgain place).coils = st.coils := rfl
@[simp] theorem Station.raisedAgain_outbox (st : Station) (place : Nat) :
    (st.raisedAgain place).outbox = st.outbox := rfl

@[simp] theorem Station.countPeriod_mode (st : Station) : st.countPeriod.mode = st.mode := rfl
@[simp] theorem Station.countPeriod_record (st : Station) : st.countPeriod.record = st.record := rfl
@[simp] theorem Station.countPeriod_periodCount (st : Station) :
    st.countPeriod.periodCount = (st.periodCount + 1) % 4294967296 := rfl
@[simp] theorem Station.countPeriod_joinCount (st : Station) : st.countPeriod.joinCount = st.joinCount := rfl
@[simp] theorem Station.countPeriod_entries (st : Station) : st.countPeriod.entries = st.entries := rfl
@[simp] theorem Station.countPeriod_zones (st : Station) : st.countPeriod.zones = st.zones := rfl
@[simp] theorem Station.countPeriod_lowerSide (st : Station) : st.countPeriod.lowerSide = st.lowerSide := rfl
@[simp] theorem Station.countPeriod_upperSide (st : Station) : st.countPeriod.upperSide = st.upperSide := rfl
@[simp] theorem Station.countPeriod_noticeDue (st : Station) : st.countPeriod.noticeDue = st.noticeDue := rfl
@[simp] theorem Station.countPeriod_joinPresentDue (st : Station) :
    st.countPeriod.joinPresentDue = st.joinPresentDue := rfl
@[simp] theorem Station.countPeriod_nextPlace (st : Station) : st.countPeriod.nextPlace = st.nextPlace := rfl
@[simp] theorem Station.countPeriod_attempt (st : Station) : st.countPeriod.attempt = st.attempt := rfl
@[simp] theorem Station.countPeriod_sendList (st : Station) : st.countPeriod.sendList = st.sendList := rfl
@[simp] theorem Station.countPeriod_rxQueue (st : Station) : st.countPeriod.rxQueue = st.rxQueue := rfl
@[simp] theorem Station.countPeriod_rxStalled (st : Station) : st.countPeriod.rxStalled = st.rxStalled := rfl
@[simp] theorem Station.countPeriod_linkCounters (st : Station) : st.countPeriod.linkCounters = st.linkCounters := rfl
@[simp] theorem Station.countPeriod_ackDriven (st : Station) : st.countPeriod.ackDriven = st.ackDriven := rfl
@[simp] theorem Station.countPeriod_orders (st : Station) : st.countPeriod.orders = st.orders := rfl
@[simp] theorem Station.countPeriod_nextTag (st : Station) : st.countPeriod.nextTag = st.nextTag := rfl
@[simp] theorem Station.countPeriod_watchMode (st : Station) : st.countPeriod.watchMode = st.watchMode := rfl
@[simp] theorem Station.countPeriod_watchList (st : Station) : st.countPeriod.watchList = st.watchList := rfl
@[simp] theorem Station.countPeriod_expectedScan (st : Station) : st.countPeriod.expectedScan = st.expectedScan := rfl
@[simp] theorem Station.countPeriod_sightingCounters (st : Station) :
    st.countPeriod.sightingCounters = st.sightingCounters := rfl
@[simp] theorem Station.countPeriod_drive (st : Station) : st.countPeriod.drive = st.drive := rfl
@[simp] theorem Station.countPeriod_latch (st : Station) : st.countPeriod.latch = st.latch := rfl
@[simp] theorem Station.countPeriod_overCurrent (st : Station) : st.countPeriod.overCurrent = st.overCurrent := rfl
@[simp] theorem Station.countPeriod_supplyLow (st : Station) : st.countPeriod.supplyLow = st.supplyLow := rfl
@[simp] theorem Station.countPeriod_pwm (st : Station) : st.countPeriod.pwm = st.pwm := rfl
@[simp] theorem Station.countPeriod_coils (st : Station) : st.countPeriod.coils = st.coils := rfl
@[simp] theorem Station.countPeriod_outbox (st : Station) : st.countPeriod.outbox = st.outbox := rfl

@[simp] theorem Station.endOrder_mode (st : Station) (tag : Nat) : (st.endOrder tag).mode = st.mode := rfl
@[simp] theorem Station.endOrder_record (st : Station) (tag : Nat) : (st.endOrder tag).record = st.record := rfl
@[simp] theorem Station.endOrder_periodCount (st : Station) (tag : Nat) :
    (st.endOrder tag).periodCount = st.periodCount := rfl
@[simp] theorem Station.endOrder_joinCount (st : Station) (tag : Nat) :
    (st.endOrder tag).joinCount = st.joinCount := rfl
@[simp] theorem Station.endOrder_entries (st : Station) (tag : Nat) : (st.endOrder tag).entries = st.entries := rfl
@[simp] theorem Station.endOrder_zones (st : Station) (tag : Nat) : (st.endOrder tag).zones = st.zones := rfl
@[simp] theorem Station.endOrder_lowerSide (st : Station) (tag : Nat) :
    (st.endOrder tag).lowerSide = st.lowerSide := rfl
@[simp] theorem Station.endOrder_upperSide (st : Station) (tag : Nat) :
    (st.endOrder tag).upperSide = st.upperSide := rfl
@[simp] theorem Station.endOrder_noticeDue (st : Station) (tag : Nat) :
    (st.endOrder tag).noticeDue = st.noticeDue := rfl
@[simp] theorem Station.endOrder_joinPresentDue (st : Station) (tag : Nat) :
    (st.endOrder tag).joinPresentDue = st.joinPresentDue := rfl
@[simp] theorem Station.endOrder_nextPlace (st : Station) (tag : Nat) :
    (st.endOrder tag).nextPlace = st.nextPlace := rfl
@[simp] theorem Station.endOrder_attempt (st : Station) (tag : Nat) : (st.endOrder tag).attempt = st.attempt := rfl
@[simp] theorem Station.endOrder_sendList (st : Station) (tag : Nat) : (st.endOrder tag).sendList = st.sendList := rfl
@[simp] theorem Station.endOrder_rxQueue (st : Station) (tag : Nat) : (st.endOrder tag).rxQueue = st.rxQueue := rfl
@[simp] theorem Station.endOrder_rxStalled (st : Station) (tag : Nat) :
    (st.endOrder tag).rxStalled = st.rxStalled := rfl
@[simp] theorem Station.endOrder_linkCounters (st : Station) (tag : Nat) :
    (st.endOrder tag).linkCounters = st.linkCounters := rfl
@[simp] theorem Station.endOrder_ackDriven (st : Station) (tag : Nat) :
    (st.endOrder tag).ackDriven = st.ackDriven := rfl
@[simp] theorem Station.endOrder_orders (st : Station) (tag : Nat) :
    (st.endOrder tag).orders = st.orders.filter (·.tag ≠ tag) := rfl
@[simp] theorem Station.endOrder_nextTag (st : Station) (tag : Nat) : (st.endOrder tag).nextTag = st.nextTag := rfl
@[simp] theorem Station.endOrder_watchMode (st : Station) (tag : Nat) :
    (st.endOrder tag).watchMode = st.watchMode := rfl
@[simp] theorem Station.endOrder_watchList (st : Station) (tag : Nat) :
    (st.endOrder tag).watchList = st.watchList := rfl
@[simp] theorem Station.endOrder_expectedScan (st : Station) (tag : Nat) :
    (st.endOrder tag).expectedScan = st.expectedScan := rfl
@[simp] theorem Station.endOrder_sightingCounters (st : Station) (tag : Nat) :
    (st.endOrder tag).sightingCounters = st.sightingCounters := rfl
@[simp] theorem Station.endOrder_drive (st : Station) (tag : Nat) : (st.endOrder tag).drive = st.drive := rfl
@[simp] theorem Station.endOrder_latch (st : Station) (tag : Nat) : (st.endOrder tag).latch = st.latch := rfl
@[simp] theorem Station.endOrder_overCurrent (st : Station) (tag : Nat) :
    (st.endOrder tag).overCurrent = st.overCurrent := rfl
@[simp] theorem Station.endOrder_supplyLow (st : Station) (tag : Nat) :
    (st.endOrder tag).supplyLow = st.supplyLow := rfl
@[simp] theorem Station.endOrder_pwm (st : Station) (tag : Nat) : (st.endOrder tag).pwm = st.pwm := rfl
@[simp] theorem Station.endOrder_coils (st : Station) (tag : Nat) : (st.endOrder tag).coils = st.coils := rfl
@[simp] theorem Station.endOrder_outbox (st : Station) (tag : Nat) : (st.endOrder tag).outbox = st.outbox := rfl

/-! ## The sides -/

@[simp] theorem Station.setSide_side (st : Station) (d : Side) (r : SideRecord) : (st.setSide d r).side d = r := by
  cases d <;> rfl

@[simp] theorem Station.setSide_otherSide (st : Station) (d : Side) (r : SideRecord) :
    (st.setSide d r).side (otherSide d) = st.side (otherSide d) := by cases d <;> rfl

@[simp] theorem Station.setSide_mode (st : Station) (d : Side) (r : SideRecord) :
    (st.setSide d r).mode = st.mode := by cases d <;> rfl
@[simp] theorem Station.setSide_record (st : Station) (d : Side) (r : SideRecord) :
    (st.setSide d r).record = st.record := by cases d <;> rfl
@[simp] theorem Station.setSide_periodCount (st : Station) (d : Side) (r : SideRecord) :
    (st.setSide d r).periodCount = st.periodCount := by cases d <;> rfl
@[simp] theorem Station.setSide_joinCount (st : Station) (d : Side) (r : SideRecord) :
    (st.setSide d r).joinCount = st.joinCount := by cases d <;> rfl
@[simp] theorem Station.setSide_entries (st : Station) (d : Side) (r : SideRecord) :
    (st.setSide d r).entries = st.entries := by cases d <;> rfl
@[simp] theorem Station.setSide_zones (st : Station) (d : Side) (r : SideRecord) :
    (st.setSide d r).zones = st.zones := by cases d <;> rfl
@[simp] theorem Station.setSide_noticeDue (st : Station) (d : Side) (r : SideRecord) :
    (st.setSide d r).noticeDue = st.noticeDue := by cases d <;> rfl
@[simp] theorem Station.setSide_joinPresentDue (st : Station) (d : Side) (r : SideRecord) :
    (st.setSide d r).joinPresentDue = st.joinPresentDue := by cases d <;> rfl
@[simp] theorem Station.setSide_nextPlace (st : Station) (d : Side) (r : SideRecord) :
    (st.setSide d r).nextPlace = st.nextPlace := by cases d <;> rfl
@[simp] theorem Station.setSide_attempt (st : Station) (d : Side) (r : SideRecord) :
    (st.setSide d r).attempt = st.attempt := by cases d <;> rfl
@[simp] theorem Station.setSide_sendList (st : Station) (d : Side) (r : SideRecord) :
    (st.setSide d r).sendList = st.sendList := by cases d <;> rfl
@[simp] theorem Station.setSide_rxQueue (st : Station) (d : Side) (r : SideRecord) :
    (st.setSide d r).rxQueue = st.rxQueue := by cases d <;> rfl
@[simp] theorem Station.setSide_rxStalled (st : Station) (d : Side) (r : SideRecord) :
    (st.setSide d r).rxStalled = st.rxStalled := by cases d <;> rfl
@[simp] theorem Station.setSide_linkCounters (st : Station) (d : Side) (r : SideRecord) :
    (st.setSide d r).linkCounters = st.linkCounters := by cases d <;> rfl
@[simp] theorem Station.setSide_ackDriven (st : Station) (d : Side) (r : SideRecord) :
    (st.setSide d r).ackDriven = st.ackDriven := by cases d <;> rfl
@[simp] theorem Station.setSide_orders (st : Station) (d : Side) (r : SideRecord) :
    (st.setSide d r).orders = st.orders := by cases d <;> rfl
@[simp] theorem Station.setSide_nextTag (st : Station) (d : Side) (r : SideRecord) :
    (st.setSide d r).nextTag = st.nextTag := by cases d <;> rfl
@[simp] theorem Station.setSide_watchMode (st : Station) (d : Side) (r : SideRecord) :
    (st.setSide d r).watchMode = st.watchMode := by cases d <;> rfl
@[simp] theorem Station.setSide_watchList (st : Station) (d : Side) (r : SideRecord) :
    (st.setSide d r).watchList = st.watchList := by cases d <;> rfl
@[simp] theorem Station.setSide_expectedScan (st : Station) (d : Side) (r : SideRecord) :
    (st.setSide d r).expectedScan = st.expectedScan := by cases d <;> rfl
@[simp] theorem Station.setSide_sightingCounters (st : Station) (d : Side) (r : SideRecord) :
    (st.setSide d r).sightingCounters = st.sightingCounters := by cases d <;> rfl
@[simp] theorem Station.setSide_drive (st : Station) (d : Side) (r : SideRecord) :
    (st.setSide d r).drive = st.drive := by cases d <;> rfl
@[simp] theorem Station.setSide_latch (st : Station) (d : Side) (r : SideRecord) :
    (st.setSide d r).latch = st.latch := by cases d <;> rfl
@[simp] theorem Station.setSide_overCurrent (st : Station) (d : Side) (r : SideRecord) :
    (st.setSide d r).overCurrent = st.overCurrent := by cases d <;> rfl
@[simp] theorem Station.setSide_supplyLow (st : Station) (d : Side) (r : SideRecord) :
    (st.setSide d r).supplyLow = st.supplyLow := by cases d <;> rfl
@[simp] theorem Station.setSide_pwm (st : Station) (d : Side) (r : SideRecord) :
    (st.setSide d r).pwm = st.pwm := by cases d <;> rfl
@[simp] theorem Station.setSide_coils (st : Station) (d : Side) (r : SideRecord) :
    (st.setSide d r).coils = st.coils := by cases d <;> rfl
@[simp] theorem Station.setSide_outbox (st : Station) (d : Side) (r : SideRecord) :
    (st.setSide d r).outbox = st.outbox := by cases d <;> rfl

/-! ## Updates of the state -/

@[simp] theorem State.commit_station (s : State) (st : Station) :
    (s.commit st).station = ({ st with outbox := [] } : Station).refreshOutputs := rfl
@[simp] theorem State.commit_reports (s : State) (st : Station) :
    (s.commit st).reports = s.reports.addAll st.periodCount st.outbox := rfl
@[simp] theorem State.commit_port (s : State) (st : Station) : (s.commit st).port = s.port := rfl
@[simp] theorem State.commit_store (s : State) (st : Station) : (s.commit st).store = s.store := rfl
@[simp] theorem State.commit_free (s : State) (st : Station) : (s.commit st).free = s.free := rfl
@[simp] theorem State.commit_pending (s : State) (st : Station) : (s.commit st).pending = s.pending := rfl

@[simp] theorem State.answer_station (s : State) (seq : Nat) (result : ResultCode) (data : ReplyData) :
    (s.answer seq result data).station = s.station := rfl
@[simp] theorem State.answer_reports (s : State) (seq : Nat) (result : ResultCode) (data : ReplyData) :
    (s.answer seq result data).reports = s.reports := rfl
@[simp] theorem State.answer_port (s : State) (seq : Nat) (result : ResultCode) (data : ReplyData) :
    (s.answer seq result data).port = s.replied seq result data := rfl
@[simp] theorem State.answer_store (s : State) (seq : Nat) (result : ResultCode) (data : ReplyData) :
    (s.answer seq result data).store = s.store := rfl
@[simp] theorem State.answer_free (s : State) (seq : Nat) (result : ResultCode) (data : ReplyData) :
    (s.answer seq result data).free = s.free := rfl
@[simp] theorem State.answer_pending (s : State) (seq : Nat) (result : ResultCode) (data : ReplyData) :
    (s.answer seq result data).pending = s.pending := rfl

@[simp] theorem State.answerPlain_station (s : State) (seq : Nat) (result : ResultCode) :
    (s.answerPlain seq result).station = s.station := rfl
@[simp] theorem State.answerPlain_reports (s : State) (seq : Nat) (result : ResultCode) :
    (s.answerPlain seq result).reports = s.reports := rfl
@[simp] theorem State.answerPlain_port (s : State) (seq : Nat) (result : ResultCode) :
    (s.answerPlain seq result).port = s.replied seq result .empty := rfl
@[simp] theorem State.answerPlain_store (s : State) (seq : Nat) (result : ResultCode) :
    (s.answerPlain seq result).store = s.store := rfl
@[simp] theorem State.answerPlain_free (s : State) (seq : Nat) (result : ResultCode) :
    (s.answerPlain seq result).free = s.free := rfl
@[simp] theorem State.answerPlain_pending (s : State) (seq : Nat) (result : ResultCode) :
    (s.answerPlain seq result).pending = s.pending := rfl

@[simp] theorem State.refuse_station (s : State) (seq : Nat) (r : RefuseReason) :
    (s.refuse seq r).station = s.station := rfl
@[simp] theorem State.refuse_reports (s : State) (seq : Nat) (r : RefuseReason) :
    (s.refuse seq r).reports = s.reports := rfl
@[simp] theorem State.refuse_port (s : State) (seq : Nat) (r : RefuseReason) :
    (s.refuse seq r).port = s.replied seq .refused (.reason r) := rfl
@[simp] theorem State.refuse_store (s : State) (seq : Nat) (r : RefuseReason) : (s.refuse seq r).store = s.store := rfl
@[simp] theorem State.refuse_free (s : State) (seq : Nat) (r : RefuseReason) : (s.refuse seq r).free = s.free := rfl
@[simp] theorem State.refuse_pending (s : State) (seq : Nat) (r : RefuseReason) :
    (s.refuse seq r).pending = s.pending := rfl

@[simp] theorem State.withStore_station (s : State) (store : Store) : (s.withStore store).station = s.station := rfl
@[simp] theorem State.withStore_reports (s : State) (store : Store) : (s.withStore store).reports = s.reports := rfl
@[simp] theorem State.withStore_port (s : State) (store : Store) : (s.withStore store).port = s.port := rfl
@[simp] theorem State.withStore_store (s : State) (store : Store) : (s.withStore store).store = store := rfl
@[simp] theorem State.withStore_free (s : State) (store : Store) : (s.withStore store).free = s.free := rfl
@[simp] theorem State.withStore_pending (s : State) (store : Store) : (s.withStore store).pending = s.pending := rfl

end Sys2Proof.Machine
end

