-- ==== Sys2Proof/Laws/Limits.lean ====
section
/-! SUPPORT. The limits of the station's queues and lists (R101, R106, R125, R133) and its neighbours (R112) through every
operation: what keeps the fields of `Station.Kept` keeps them, and the few operations that write those fields keep them
too. With `Station.tabled_…` of Laws/Table.lean this is what a proof about every step needs of the station. -/

namespace Sys2Proof.Machine

open Sys2Proof.Config

theorem sublist_of_eq {l m : List Nat} (h : l = m) : l.Sublist m := h ▸ List.Sublist.refl l

/-- The limits of a station beside its tables, its switch outputs and its reports. -/
structure Station.Bounded (st : Station) : Prop where
  lower : st.lowerSide.neighbour ≠ some st.own
  upper : st.upperSide.neighbour ≠ some st.own
  rxQueue : st.rxQueue.length ≤ rxQueueSize
  sendList : st.sendList.length ≤ sendListSize
  orders : st.orders.length ≤ orderTableSize
  orderTags : (st.orders.map PendingOrder.tag).Nodup
  watchList : st.watchList.length ≤ watchListSize

theorem Station.Limited.bounded {st : Station} (h : st.Limited) : st.Bounded :=
  ⟨h.neighbours.1, h.neighbours.2, h.rxQueue, h.sendList, h.orders, h.orderTags, h.watchList⟩

/-- A station within its limits is within its invariant once an event has ended with it (R155, R166). -/
theorem State.commit_limited {s : State} {st : Station} (ht : st.Tabled) (hb : st.Bounded) :
    (s.commit st).station.Limited :=
  ⟨State.commit_tabled ht, ⟨hb.lower, hb.upper⟩, hb.rxQueue, hb.sendList, hb.orders, hb.orderTags, hb.watchList,
    State.commit_legs s st, rfl⟩

/-- What keeps the kept fields keeps the limits. -/
theorem Station.Bounded.of_kept {st st' : Station} (h : st.Bounded) (hk : st'.kept = st.kept) : st'.Bounded := by
  have e1 : st'.record = st.record := congrArg Station.Kept.record hk
  have e2 : st'.lowerSide.neighbour = st.lowerSide.neighbour := congrArg Station.Kept.lowerNeighbour hk
  have e3 : st'.upperSide.neighbour = st.upperSide.neighbour := congrArg Station.Kept.upperNeighbour hk
  have e4 : st'.rxQueue = st.rxQueue := congrArg Station.Kept.rxQueue hk
  have e5 : max st'.sendList.length 8 = max st.sendList.length 8 := congrArg Station.Kept.sendBound hk
  have e6 : st'.orders = st.orders := congrArg Station.Kept.orders hk
  have e7 : st'.watchList = st.watchList := congrArg Station.Kept.watchList hk
  have e8 : st'.own = st.own := by simp [Station.own, Station.conf, e1]
  have hs := h.sendList
  refine ⟨by rw [e2, e8]; exact h.lower, by rw [e3, e8]; exact h.upper, by rw [e4]; exact h.rxQueue, ?_,
    by rw [e6]; exact h.orders, by rw [e6]; exact h.orderTags, by rw [e7]; exact h.watchList⟩
  simp only [sendListSize] at hs ⊢
  omega

/-- The limits stay when the fields they speak of stay or shrink. -/
theorem Station.Bounded.shrink {st st' : Station} (h : st.Bounded) (hr : st'.record = st.record)
    (hl : st'.lowerSide.neighbour = st.lowerSide.neighbour) (hu : st'.upperSide.neighbour = st.upperSide.neighbour)
    (hq : st'.rxQueue.length ≤ st.rxQueue.length) (hs : st'.sendList.length ≤ st.sendList.length)
    (ho : (st'.orders.map PendingOrder.tag).Sublist (st.orders.map PendingOrder.tag)) (hw : st'.watchList = st.watchList) :
    st'.Bounded := by
  have e8 : st'.own = st.own := by simp [Station.own, Station.conf, hr]
  refine ⟨by rw [hl, e8]; exact h.lower, by rw [hu, e8]; exact h.upper, Nat.le_trans hq h.rxQueue,
    Nat.le_trans hs h.sendList, ?_, h.orderTags.sublist ho, by rw [hw]; exact h.watchList⟩
  have := ho.length_le
  simp only [List.length_map] at this
  exact Nat.le_trans this h.orders

theorem Station.setSide_neighbours (st : Station) (d : Side) (r : SideRecord)
    (h : r.neighbour = (st.side d).neighbour) :
    (st.setSide d r).lowerSide.neighbour = st.lowerSide.neighbour ∧
    (st.setSide d r).upperSide.neighbour = st.upperSide.neighbour := by
  cases d <;> simp_all [Station.setSide, Station.side]

/-- Folds that keep the limits. -/
theorem Station.Bounded.foldl {α : Type} {f : Station → α → Station} (hf : ∀ st x, st.Bounded → (f st x).Bounded)
    (xs : List α) {st : Station} (h : st.Bounded) : (xs.foldl f st).Bounded := by
  induction xs generalizing st with
  | nil => exact h
  | cons x xs ih => exact ih (hf st x h)

/-! ## Frames -/

theorem Station.Bounded.popped {st : Station} (h : st.Bounded) {f : RxFrame} {rest : List RxFrame}
    (hq : st.rxQueue = f :: rest) (stalled : Bool) : ({ st with rxQueue := rest, rxStalled := stalled } : Station).Bounded :=
  h.shrink rfl rfl rfl (by simp [hq]) (Nat.le_refl _) (List.Sublist.refl _) rfl

theorem Station.Bounded.purge {st : Station} (h : st.Bounded) (n : Address) (d : Side) : (st.purge n d).Bounded := by
  have h1 : ((st.report (.neighbourRestart n)).purgeZones n).Bounded := h.of_kept (by simp)
  have h2 := Station.Bounded.foldl (f := fun (st : Station) m => st.purgeVisitor n m)
    (fun st m h => h.of_kept (by simp)) ((st.report (.neighbourRestart n)).purgeZones n).movers h1
  have h3 := fun (ms : List MoverId) (st : Station) (h : st.Bounded) =>
    Station.Bounded.foldl (f := fun (st : Station) m =>
      if (st.entry? m).any (·.handingTo n) then st.endHandover m .handoverLost none else st)
    (fun st m h => by split <;> first | exact h | exact h.of_kept (by simp)) ms h
  unfold Station.purge
  dsimp only
  generalize List.foldl (fun (st : Station) m => st.purgeVisitor n m) _ _ = v at h2 ⊢
  have h3' := h3 v.movers v h2
  generalize List.foldl _ v v.movers = w at h3' ⊢
  have h4 : ({ w with entries := w.entries.map (w.purgeEntry n d),
                      sendList := w.sendList.filter (·.destination ≠ n) } : Station).Bounded :=
    h3'.shrink rfl rfl rfl (Nat.le_refl _) (List.length_filter_le _ _) (List.Sublist.refl _) rfl
  exact h4.of_kept (Station.setSide_kept _ _ _ rfl)

theorem Station.Bounded.becomeOnline {st : Station} (h : st.Bounded) : st.becomeOnline.Bounded := by
  have key : ∀ (st : Station) (d : Side), st.Bounded →
      (if (st.side d).state = .unheard then st.closeSide d .lost else st).Bounded := by
    intro st d h; split <;> first | exact h | exact h.of_kept (by simp)
  have h0 : ({ st with mode := .online } : Station).Bounded :=
    h.shrink rfl rfl rfl (Nat.le_refl _) (Nat.le_refl _) (List.Sublist.refl _) rfl
  exact (key _ .upper (key _ .lower h0)).of_kept (Station.report_kept _ _)

theorem Station.Bounded.presentFrom {st : Station} (h : st.Bounded) (n : Address) (p : Present) :
    (st.presentFrom n p).Bounded := by
  unfold Station.presentFrom
  split
  · exact h
  · rename_i d _
    dsimp only
    have h1 : (if p.fresh && (st.side d).state.heard then st.purge n d else st).Bounded := by
      split <;> first | exact h | exact h.purge _ _
    generalize (if p.fresh && (st.side d).state.heard then st.purge n d else st) = purged at h1 ⊢
    have h2 : ((purged.judgePresent d p).neighbourDrive d p.drive).Bounded := h1.of_kept (by simp)
    generalize (purged.judgePresent d p).neighbourDrive d p.drive = applied at h2 ⊢
    have h3 : (if p.answerWanted && st.consistent p d then applied.owePresent d false else applied).Bounded := by
      split <;> first | exact h2 | exact h2.of_kept (by simp)
    generalize (if p.answerWanted && st.consistent p d then applied.owePresent d false else applied) = answered at h3 ⊢
    split <;> first | exact h3 | exact h3.becomeOnline

theorem Station.Bounded.endOrder {st : Station} (h : st.Bounded) (t : Nat) : (st.endOrder t).Bounded :=
  h.shrink rfl rfl rfl (Nat.le_refl _) (Nat.le_refl _) (List.Sublist.map _ List.filter_sublist) rfl

theorem Station.Bounded.mapOrders {st : Station} (h : st.Bounded) {f : PendingOrder → PendingOrder}
    (hf : ∀ o, (f o).tag = o.tag) : ({ st with orders := st.orders.map f } : Station).Bounded :=
  h.shrink rfl rfl rfl (Nat.le_refl _) (Nat.le_refl _) (by
    have e : (st.orders.map f).map PendingOrder.tag = st.orders.map PendingOrder.tag := by simp [hf]
    exact sublist_of_eq e) rfl

theorem Station.Bounded.retrySeen {st : Station} (h : st.Bounded) (t : Nat) (n : Address) : (st.retrySeen t n).Bounded :=
  h.mapOrders fun o => by split <;> rfl

theorem Station.Bounded.replyFrom {st : Station} (h : st.Bounded) (n : Address) (t : Nat) (m : MoverId) (r : OrderResult) :
    (st.replyFrom n t m r).Bounded := by
  unfold Station.replyFrom
  (repeat' split) <;> first | exact h | exact h.retrySeen _ _ | exact (h.endOrder t).of_kept (Station.report_kept _ _)

theorem Station.Bounded.originCheck {st : Station} (h : st.Bounded) (t : Nat) : (st.originCheck t).Bounded := by
  unfold Station.originCheck
  (repeat' split) <;> first
    | exact h
    | exact h.retrySeen _ _
    | exact ((h.of_kept (Station.applyOrder_kept _ _ _)).endOrder t).of_kept (Station.report_kept _ _)

theorem Station.Bounded.handOn {st : Station} (h : st.Bounded) (n : Address) (f : Frame) : (st.handOn n f).Bounded := by
  cases f with
  | present p => exact h.presentFrom n p
  | orderReply t m r => exact h.replyFrom n t m r
  | _ => exact h.of_kept (by simp [Station.handOn])

theorem Station.Bounded.countLink {st : Station} (h : st.Bounded) (f : LinkCounters → LinkCounters) :
    (st.countLink f).Bounded :=
  h.shrink rfl rfl rfl (Nat.le_refl _) (Nat.le_refl _) (List.Sublist.refl _) rfl

theorem Station.Bounded.settleHead {st : Station} (h : st.Bounded) {f : RxFrame} {rest : List RxFrame}
    (hq : st.rxQueue = f :: rest) (fr : Frame) : (st.settleHead f rest fr).Bounded := by
  unfold Station.settleHead
  dsimp only
  have hp := h.popped hq false
  (repeat' split)
  · exact hp.countLink _
  · exact h.shrink rfl rfl rfl (Nat.le_refl _) (Nat.le_refl _) (List.Sublist.refl _) rfl
  · exact hp.handOn _ _

theorem Station.watchTaken_rxQueue (st : Station) (f : RxFrame) (m : MoverId) :
    (st.watchTaken f m).rxQueue = st.rxQueue := by unfold Station.watchTaken; split <;> rfl

theorem Station.Bounded.takeHead {st : Station} (h : st.Bounded) {f : RxFrame} {rest : List RxFrame}
    (hq : st.rxQueue = f :: rest) : (st.takeHead f rest).Bounded := by
  unfold Station.takeHead
  have hp : ({ st with rxQueue := rest } : Station).Bounded := h.popped hq st.rxStalled
  (repeat' split)
  · exact hp.countLink _
  · exact hp.of_kept (Station.watchTaken_kept _ _ _)
  · exact (h.of_kept (Station.watchTaken_kept _ _ _)).settleHead ((Station.watchTaken_rxQueue _ _ _).trans hq) _
  · exact h.settleHead hq _
  · exact h.settleHead hq _

theorem Station.Bounded.retestHead {st : Station} (h : st.Bounded) : st.retestHead.Bounded := by
  unfold Station.retestHead
  split
  · rename_i hq
    split
    · exact h.settleHead hq _
    · exact h
  · exact h

theorem Station.Bounded.retestIfFreed {st : Station} (h : st.Bounded) (before : Station) :
    (st.retestIfFreed before).Bounded := by
  unfold Station.retestIfFreed
  split <;> first | exact h.retestHead | exact h

theorem Station.Bounded.dropUnknown {st : Station} (h : st.Bounded) : st.dropUnknown.Bounded := by
  unfold Station.dropUnknown
  split
  · exact h
  · have : ({ st with rxQueue := st.rxQueue.dropWhile fun f => !knownKind f.kind } : Station).Bounded :=
      h.shrink rfl rfl rfl (List.dropWhile_sublist _).length_le (Nat.le_refl _) (List.Sublist.refl _) rfl
    exact this.countLink _

theorem Station.Bounded.takeBehind {st : Station} (h : st.Bounded) (f : RxFrame) : (st.takeBehind f).Bounded := by
  unfold Station.takeBehind
  split
  · exact h.countLink _
  · exact h.handOn _ _

theorem Station.Bounded.takeFrame {st : Station} (h : st.Bounded) (w : RxFrame → Bool) : (st.takeFrame w).Bounded := by
  unfold Station.takeFrame
  split
  · exact h
  · have h1 : (if st.rxStalled then st else st.dropUnknown).Bounded := by
      split <;> first | exact h | exact h.dropUnknown
    dsimp only
    generalize (if st.rxStalled then st else st.dropUnknown) = cleared at h1 ⊢
    split
    · exact h1
    · rename_i hq
      split
      · exact (h1.takeHead hq).retestIfFreed _
      · exact h1
    · rename_i f rest _ hq
      split
      · rename_i g _
        split
        · have : ({ cleared with rxQueue := f :: rest.erase g } : Station).Bounded :=
            h1.shrink rfl rfl rfl (by
              have := (List.erase_sublist (a := g) (l := rest)).length_le
              simp only [hq, List.length_cons]
              omega) (Nat.le_refl _) (List.Sublist.refl _) rfl
          exact (this.takeBehind g).retestIfFreed _
        · exact h1
      · exact h1

theorem Station.Bounded.readOff {st : Station} (h : st.Bounded) (r : LineReading) : (st.readOff r).Bounded := by
  cases r with
  | nothing => exact h
  | error => exact h.shrink rfl rfl rfl (Nat.le_refl _) (Nat.le_refl _) (List.Sublist.refl _) rfl
  | frame f =>
    simp only [Station.readOff, Station.receive]
    (repeat' split)
    · exact h.shrink rfl rfl rfl (Nat.le_refl _) (Nat.le_refl _) (List.Sublist.refl _) rfl
    · exact h.shrink rfl rfl rfl (Nat.le_refl _) (Nat.le_refl _) (List.Sublist.refl _) rfl
    · rename_i hl
      exact ⟨h.lower, h.upper, by simp only [List.length_append, List.length_singleton]; omega, h.sendList, h.orders,
        h.orderTags, h.watchList⟩

/-! ## Attempts -/

theorem Station.Bounded.mapDues {st : Station} (h : st.Bounded) (f : Due → Due) : (st.mapDues f).Bounded := by
  refine h.shrink rfl rfl rfl (Nat.le_refl _) (by simp [Station.mapDues]) ?_ rfl
  have e : ((st.mapDues f).orders).map PendingOrder.tag = st.orders.map PendingOrder.tag := by
    simp [Station.mapDues, Function.comp_def]
  exact sublist_of_eq e

theorem Station.Bounded.contend {st : Station} (h : st.Bounded) (rivals : List Byte) : (st.contend rivals).Bounded := by
  unfold Station.contend Station.startAttempt
  (repeat' split)
  · exact h
  · exact h
  · exact h
  · exact (h.mapDues _).shrink rfl rfl rfl (Nat.le_refl _) (Nat.le_refl _) (List.Sublist.refl _) rfl

theorem Station.Bounded.clearMark {st : Station} (h : st.Bounded) (r : SendRef) (p : Nat) : (st.clearMark r p).Bounded := by
  cases r with
  | claim m => exact h.of_kept (Station.modifyEntry_kept _ _ _)
  | cancel m => exact h.of_kept (Station.modifyEntry_kept _ _ _)
  | release m d => exact h.of_kept (Station.modifyEntry_kept _ _ _)
  | track m => exact h.of_kept (Station.modifyEntry_kept _ _ _)
  | handover m => exact h.of_kept (Station.modifyEntry_kept _ _ _)
  | taken m => exact h.of_kept (Station.modifyEntry_kept _ _ _)
  | grant k => exact h.of_kept (Station.modifyZone_kept _ _ _)
  | queued k m => exact h.of_kept (Station.modifyZone_kept _ _ _)
  | present d => exact h.of_kept (Station.setSide_kept _ _ _ rfl)
  | notice => exact h.shrink rfl rfl rfl (Nat.le_refl _) (Nat.le_refl _) (List.Sublist.refl _) rfl
  | joinPresent => exact h.shrink rfl rfl rfl (Nat.le_refl _) (Nat.le_refl _) (List.Sublist.refl _) rfl
  | order t => exact h.mapOrders fun o => by split <;> rfl
  | loose => exact h.shrink rfl rfl rfl (Nat.le_refl _) (List.length_filter_le _ _) (List.Sublist.refl _) rfl

theorem Station.Bounded.delivered {st : Station} (h : st.Bounded) (a : Attempt) : (st.delivered a).Bounded := by
  unfold Station.delivered
  split <;> first | exact h.of_kept (Station.modifyEntry_kept _ _ _) | exact h.clearMark _ _

theorem Station.Bounded.failed {st : Station} (h : st.Bounded) (a : Attempt) : (st.failed a).Bounded := by
  unfold Station.failed
  (repeat' split) <;> first
    | exact h.of_kept (by simp)
    | exact h.clearMark _ _
    | exact h.mapDues _
    | exact (h.clearMark _ _).countLink _

theorem Station.Bounded.endAttempt {st : Station} (h : st.Bounded) (a : Attempt) (slot : SlotReading) :
    (st.endAttempt a slot).Bounded := by
  have hi : ({ st with attempt := none } : Station).Bounded :=
    h.shrink rfl rfl rfl (Nat.le_refl _) (Nat.le_refl _) (List.Sublist.refl _) rfl
  have hdel : ∀ st : Station, st.Bounded → (st.deliver a).Bounded := by
    intro st h
    unfold Station.deliver
    (repeat' split) <;> first | exact h | exact h.mapDues _ | exact h.delivered _
  have hfail : ∀ st : Station, st.Bounded → (st.deliveryFailure a).Bounded := by
    intro st h
    have key : ∀ closed : Station, closed.Bounded →
        (if !closed.markStands a.place then closed
          else if a.raisedAgain then closed.setTries a.place 0 else closed.failed a).Bounded := by
      intro closed hc
      (repeat' split) <;> first | exact hc | exact hc.mapDues _ | exact hc.failed a
    unfold Station.deliveryFailure
    cases st.sideOfAddress a.destination with
    | none => exact key _ (h.countLink _)
    | some d => exact key _ ((h.countLink _).of_kept (Station.closeSide_kept _ _ _))
  unfold Station.endAttempt
  dsimp only
  refine Station.Bounded.retestIfFreed ?_ st
  have hd : (if slot = .disturbed then
      ({ st with attempt := none } : Station).countLink fun c => { c with disturbedAttempts := raiseCounter c.disturbedAttempts 1 }
      else { st with attempt := none }).Bounded := by
    split <;> first | exact hi.countLink _ | exact hi
  generalize (if slot = .disturbed then _ else _) = counted at hd ⊢
  split
  · unfold Station.endAcknowledged
    (repeat' split) <;> first | exact hdel _ hd | exact hfail _ hd | exact hd.mapDues _
  · unfold Station.complete
    dsimp only
    (repeat' split) <;> first
      | exact hd
      | exact hd.mapDues _
      | exact (hd.clearMark _ _).originCheck _
      | exact hd.clearMark _ _

/-! ## Expiries, scans, the drive, station control -/

theorem Station.Bounded.joinTick {st : Station} (h : st.Bounded) : st.joinTick.Bounded := by
  unfold Station.joinTick
  have hc : ({ st with joinCount := st.joinCount + 1 } : Station).Bounded := h.of_kept rfl
  (repeat' split) <;> first | exact h | exact hc.becomeOnline | exact hc

theorem Station.Bounded.orderTick {st : Station} (h : st.Bounded) : st.orderTick.Bounded := by
  refine h.shrink rfl rfl rfl (Nat.le_refl _) (Nat.le_refl _) ?_ rfl
  have e : (((st.orders.filter fun o => !o.ends).map PendingOrder.wait).map PendingOrder.tag) =
      (st.orders.filter fun o => !o.ends).map PendingOrder.tag := by
    rw [List.map_map]
    exact List.map_congr_left fun o _ => by simp only [Function.comp, PendingOrder.wait]; split <;> rfl
  show (((st.orders.filter fun o => !o.ends).map PendingOrder.wait).map PendingOrder.tag).Sublist _
  rw [e]
  exact List.Sublist.map _ List.filter_sublist

theorem Station.Bounded.periodWork {st : Station} (h : st.Bounded) : st.periodWork.Bounded :=
  ((((Station.Bounded.foldl (f := fun st m => st.workEntry m) (fun st m h => h.of_kept (by simp)) st.movers h).joinTick).of_kept
    (Station.probeTick_kept _ _)).of_kept (Station.probeTick_kept _ _)).orderTick

theorem Station.Bounded.countSighting {st : Station} (h : st.Bounded) (f : SightingCounters → SightingCounters) :
    (st.countSighting f).Bounded :=
  h.shrink rfl rfl rfl (Nat.le_refl _) (Nat.le_refl _) (List.Sublist.refl _) rfl

theorem Station.Bounded.readSightings {st : Station} (h : st.Bounded) (seen : List MoverId) (ss : List (Nat × Nat)) :
    (st.readSightings seen ss).1.Bounded := by
  induction ss generalizing st seen with
  | nil => exact h
  | cons s ss ih =>
    unfold Station.readSightings
    split
    · exact ih (h.countSighting _) _
    · refine ih ?_ _
      unfold Station.sight Station.sightUnknown
      dsimp only
      (repeat' split) <;> first | exact h | exact h.countSighting _ | exact h.of_kept (by simp)

theorem Station.Bounded.workScan {st : Station} (h : st.Bounded) (c : Option Scan) : (st.workScan c).Bounded := by
  have hx : ∀ (st : Station) (q : Option Nat), st.Bounded → ({ st with expectedScan := q } : Station).Bounded :=
    fun st q h => h.shrink rfl rfl rfl (Nat.le_refl _) (Nat.le_refl _) (List.Sublist.refl _) rfl
  have hg : ∀ (s : Scan) (g : Nat), (st.goodScan s g).Bounded := fun s g => by
    unfold Station.goodScan
    dsimp only
    exact hx _ _ (((((h.countSighting _).of_kept (Station.loseTimes_kept _ _)).readSightings _ _)).of_kept
      (Station.loseAll_kept _ _))
  unfold Station.workScan
  (repeat' split)
  · exact hx _ _ ((h.countSighting _).of_kept (Station.loseAll_kept _ _))
  · exact hg _ _
  · exact h.countSighting _
  · exact hg _ _

theorem Station.Bounded.withDrive {st : Station} (h : st.Bounded) (d : DriveState) : (st.setDrive d).Bounded :=
  Station.Bounded.of_kept (h.shrink (st' := { st with drive := d }) rfl rfl rfl (Nat.le_refl _) (Nat.le_refl _)
    (List.Sublist.refl _) rfl) (Station.oweNotice_kept _)

theorem Station.Bounded.withLatch {st : Station} (h : st.Bounded) (l : Option TripCause) :
    ({ st with latch := l } : Station).Bounded :=
  h.shrink rfl rfl rfl (Nat.le_refl _) (Nat.le_refl _) (List.Sublist.refl _) rfl

theorem Station.Bounded.setInput {st : Station} (h : st.Bounded) (i : TripCause) (b : Bool) : (st.setInput i b).Bounded := by
  cases i <;> exact h.shrink rfl rfl rfl (Nat.le_refl _) (Nat.le_refl _) (List.Sublist.refl _) rfl

theorem Station.Bounded.inputActive {st : Station} (h : st.Bounded) (c : TripCause) : (st.inputActive c).Bounded := by
  have htrip : (st.trip c).Bounded :=
    ((((h.withLatch (some c)).withDrive (.tripped c)).of_kept (Station.report_kept _ _)).of_kept
      (Station.kept_foldl _ Station.tripFault_kept _ _)).of_kept (Station.denyRemoteClaims_kept _)
  unfold Station.inputActive
  (repeat' split) <;> first | exact h | exact h.withLatch _ | exact htrip

theorem Station.Bounded.enterMaintenance {st : Station} (h : st.Bounded) : st.enterMaintenance.Bounded := by
  unfold Station.enterMaintenance
  dsimp only
  have h0 : ({ st with mode := .maintenance, zones := st.zones.map fun (z : Zone) => { z with waiting := [] } } :
      Station).Bounded :=
    h.shrink rfl rfl rfl (Nat.le_refl _) (Nat.le_refl _) (List.Sublist.refl _) rfl
  have h1 := Station.Bounded.foldl (f := fun (st : Station) (p : Nat × WaitClaim) => st.tellDenied p.1 p.2 .state)
    (fun st p h => h.of_kept (Station.tellDenied_kept _ _ _ _)) st.allClaims h0
  have h2 := fun (ks : List Nat) (st : Station) (h : st.Bounded) =>
    Station.Bounded.foldl (f := fun (st : Station) k => if (st.zone? k).any (·.state.isHeld) then st.freeZone k else st)
      (fun st k h => by split <;> first | exact h | exact h.of_kept (Station.freeZone_kept _ _)) ks h
  exact Station.Bounded.of_kept (h2 _ _ h1) rfl

end Sys2Proof.Machine
end

