-- ==== Sys2Proof/Laws/PerInstr.lean ====
section
/-! SUPPORT. The family `Bytes`, one lemma per command: the message of a command whose operands fit their bytes keeps to
the 128 bytes of R160. -/

namespace Sys2Proof.Laws.Bytes

open Sys2Proof.Machine

/-- A well-formed command that a message brings has a sequence number and a code of one byte each, and at most 125
parameter bytes, so that its message of 3 bytes more keeps to 128 bytes (R160, R182). -/
def Statement (c : Instr) : Prop :=
  c.wellFormed = true → ∀ p, codeOfCommand c = some p → p.1 < 256 ∧ p.2.1 < 256 ∧ p.2.2.length ≤ 125

/-- A command that no message brings satisfies the statement. -/
theorem ofNone {c : Instr} (h : codeOfCommand c = none) : Statement c := by
  intro _ p hp
  rw [h] at hp
  exact absurd hp (by simp)

/-- A command of a message satisfies the statement when its parts do. -/
theorem ofSome {c : Instr} {q k : Nat} {ps : List Byte} (h : codeOfCommand c = some (q, k, ps))
    (ok : c.wellFormed = true → q < 256 ∧ k < 256 ∧ ps.length ≤ 125) : Statement c := by
  intro w p hp
  rw [h, Option.some.injEq] at hp
  subst hp
  exact ok w

/-- The bytes of a list of mover IDs (R182). -/
theorem flatMap_be2_length (ms : List Nat) : (ms.flatMap be2).length = 2 * ms.length := by
  induction ms with
  | nil => rfl
  | cons m ms ih =>
    rw [List.flatMap_cons, List.length_append, ih, List.length_cons]
    have : (be2 m).length = 2 := rfl
    omega

theorem pinReset : Statement .pinReset := ofNone rfl

theorem nullMessage : Statement .nullMessage := ofNone rfl

theorem malformedMessage (secondByte : Option Nat) : Statement (.malformedMessage secondByte) := ofNone rfl

theorem status (seq : Nat) : Statement (.status seq) :=
  ofSome rfl fun w => by
    simp [Instr.wellFormed, fitsByte] at w
    exact ⟨by omega, by decide, of_decide_eq_true rfl⟩

theorem readReports (seq count : Nat) : Statement (.readReports seq count) :=
  ofSome rfl fun w => by
    simp [Instr.wellFormed, fitsByte] at w
    exact ⟨by omega, by decide, of_decide_eq_true rfl⟩

theorem ackFlags (seq classes : Nat) : Statement (.ackFlags seq classes) :=
  ofSome rfl fun w => by
    simp [Instr.wellFormed, fitsByte] at w
    exact ⟨by omega, by decide, of_decide_eq_true rfl⟩

theorem setMask (seq masks : Nat) : Statement (.setMask seq masks) :=
  ofSome rfl fun w => by
    simp [Instr.wellFormed, fitsByte] at w
    exact ⟨by omega, by decide, of_decide_eq_true rfl⟩

theorem setMitigation (seq threshold age : Nat) : Statement (.setMitigation seq threshold age) :=
  ofSome rfl fun w => by
    simp [Instr.wellFormed, fitsByte] at w
    exact ⟨by omega, by decide, of_decide_eq_true rfl⟩

theorem move (seq mover : Nat) (params : MoveParams) : Statement (.move seq mover params) :=
  ofSome rfl fun w => by
    simp [Instr.wellFormed, fitsByte] at w
    exact ⟨by omega, by decide, of_decide_eq_true rfl⟩

theorem abort (seq mover : Nat) : Statement (.abort seq mover) :=
  ofSome rfl fun w => by
    simp [Instr.wellFormed, fitsByte] at w
    exact ⟨by omega, by decide, of_decide_eq_true rfl⟩

theorem clear (seq mover : Nat) : Statement (.clear seq mover) :=
  ofSome rfl fun w => by
    simp [Instr.wellFormed, fitsByte] at w
    exact ⟨by omega, by decide, of_decide_eq_true rfl⟩

theorem halt (seq : Nat) : Statement (.halt seq) :=
  ofSome rfl fun w => by
    simp [Instr.wellFormed, fitsByte] at w
    exact ⟨by omega, by decide, of_decide_eq_true rfl⟩

theorem adopt (seq mover : Nat) : Statement (.adopt seq mover) :=
  ofSome rfl fun w => by
    simp [Instr.wellFormed, fitsByte] at w
    exact ⟨by omega, by decide, of_decide_eq_true rfl⟩

theorem forget (seq mover : Nat) : Statement (.forget seq mover) :=
  ofSome rfl fun w => by
    simp [Instr.wellFormed, fitsByte] at w
    exact ⟨by omega, by decide, of_decide_eq_true rfl⟩

theorem block (seq zone : Nat) : Statement (.block seq zone) :=
  ofSome rfl fun w => by
    simp [Instr.wellFormed, fitsByte] at w
    exact ⟨by omega, by decide, of_decide_eq_true rfl⟩

theorem unblock (seq zone : Nat) : Statement (.unblock seq zone) :=
  ofSome rfl fun w => by
    simp [Instr.wellFormed, fitsByte] at w
    exact ⟨by omega, by decide, of_decide_eq_true rfl⟩

theorem driveOn (seq : Nat) : Statement (.driveOn seq) :=
  ofSome rfl fun w => by
    simp [Instr.wellFormed, fitsByte] at w
    exact ⟨by omega, by decide, of_decide_eq_true rfl⟩

theorem driveOff (seq : Nat) : Statement (.driveOff seq) :=
  ofSome rfl fun w => by
    simp [Instr.wellFormed, fitsByte] at w
    exact ⟨by omega, by decide, of_decide_eq_true rfl⟩

theorem readMover (seq mover : Nat) : Statement (.readMover seq mover) :=
  ofSome rfl fun w => by
    simp [Instr.wellFormed, fitsByte] at w
    exact ⟨by omega, by decide, of_decide_eq_true rfl⟩

theorem readZone (seq zone : Nat) : Statement (.readZone seq zone) :=
  ofSome rfl fun w => by
    simp [Instr.wellFormed, fitsByte] at w
    exact ⟨by omega, by decide, of_decide_eq_true rfl⟩

theorem readSides (seq : Nat) : Statement (.readSides seq) :=
  ofSome rfl fun w => by
    simp [Instr.wellFormed, fitsByte] at w
    exact ⟨by omega, by decide, of_decide_eq_true rfl⟩

theorem watchSet (seq mode : Nat) (movers : List Nat) : Statement (.watchSet seq mode movers) :=
  ofSome rfl fun w => by
    simp only [Instr.wellFormed, fitsByte, Bool.and_eq_true, decide_eq_true_eq] at w
    refine ⟨w.1.1.1, by decide, ?_⟩
    rw [List.length_cons, flatMap_be2_length]
    omega

theorem maintenance (seq : Nat) : Statement (.maintenance seq) :=
  ofSome rfl fun w => by
    simp [Instr.wellFormed, fitsByte] at w
    exact ⟨by omega, by decide, of_decide_eq_true rfl⟩

theorem storeRead (seq page : Nat) : Statement (.storeRead seq page) :=
  ofSome rfl fun w => by
    simp [Instr.wellFormed, fitsByte] at w
    exact ⟨by omega, by decide, of_decide_eq_true rfl⟩

theorem storeErase (seq page : Nat) : Statement (.storeErase seq page) :=
  ofSome rfl fun w => by
    simp [Instr.wellFormed, fitsByte] at w
    exact ⟨by omega, by decide, of_decide_eq_true rfl⟩

theorem storeStage (seq start : Nat) (data : List Byte) : Statement (.storeStage seq start data) :=
  ofSome rfl fun w => by
    simp only [Instr.wellFormed, fitsByte, Bool.and_eq_true, decide_eq_true_eq] at w
    exact ⟨w.1.1, by decide, by rw [List.length_cons]; omega⟩

theorem storeCommit (seq page : Nat) : Statement (.storeCommit seq page) :=
  ofSome rfl fun w => by
    simp [Instr.wellFormed, fitsByte] at w
    exact ⟨by omega, by decide, of_decide_eq_true rfl⟩

theorem storeClearBuffer (seq : Nat) : Statement (.storeClearBuffer seq) :=
  ofSome rfl fun w => by
    simp [Instr.wellFormed, fitsByte] at w
    exact ⟨by omega, by decide, of_decide_eq_true rfl⟩

theorem restart (seq : Nat) : Statement (.restart seq) :=
  ofSome rfl fun w => by
    simp [Instr.wellFormed, fitsByte] at w
    exact ⟨by omega, by decide, of_decide_eq_true rfl⟩

theorem storeOperationComplete : Statement .storeOperationComplete := ofNone rfl

theorem controlPeriodExpiry : Statement .controlPeriodExpiry := ofNone rfl

theorem followCountExpiry (mover : Nat) : Statement (.followCountExpiry mover) := ofNone rfl

theorem dwellEnd (mover : Nat) : Statement (.dwellEnd mover) := ofNone rfl

theorem zoneTimeout (mover : Nat) : Statement (.zoneTimeout mover) := ofNone rfl

theorem claimAnswerTimeout (mover : Nat) : Statement (.claimAnswerTimeout mover) := ofNone rfl

theorem handoverAnswerTimeout (mover : Nat) : Statement (.handoverAnswerTimeout mover) := ofNone rfl

theorem trackLoss (mover : Nat) : Statement (.trackLoss mover) := ofNone rfl

theorem joinCountExpiry : Statement .joinCountExpiry := ofNone rfl

theorem probeCountExpiry (side : Side) : Statement (.probeCountExpiry side) := ofNone rfl

theorem orderTimeout (tag : Nat) : Statement (.orderTimeout tag) := ofNone rfl

theorem ageTimerExpiry : Statement .ageTimerExpiry := ofNone rfl

theorem scan (bits : StrobedBits) : Statement (.scan bits) := ofNone rfl

theorem lossCountExpiry (mover : Nat) : Statement (.lossCountExpiry mover) := ofNone rfl

theorem tripInputActive (input : TripCause) : Statement (.tripInputActive input) := ofNone rfl

theorem pwmTurn : Statement .pwmTurn := ofNone rfl

theorem deadtimeElapsed (coil : Nat) (switch : SwitchName) : Statement (.deadtimeElapsed coil switch) := ofNone rfl

theorem frameReceived (bits : List Bool) : Statement (.frameReceived bits) := ofNone rfl

theorem presentFrame : Statement .presentFrame := ofNone rfl

theorem noticeFrame : Statement .noticeFrame := ofNone rfl

theorem claimFrame : Statement .claimFrame := ofNone rfl

theorem cancelFrame : Statement .cancelFrame := ofNone rfl

theorem releaseFrame : Statement .releaseFrame := ofNone rfl

theorem grantFrame : Statement .grantFrame := ofNone rfl

theorem queuedFrame : Statement .queuedFrame := ofNone rfl

theorem deniedFrame : Statement .deniedFrame := ofNone rfl

theorem deferredFrame : Statement .deferredFrame := ofNone rfl

theorem handoverFrame : Statement .handoverFrame := ofNone rfl

theorem takenFrame : Statement .takenFrame := ofNone rfl

theorem overheardTaken : Statement .overheardTaken := ofNone rfl

theorem refusedFrame : Statement .refusedFrame := ofNone rfl

theorem trackFrame : Statement .trackFrame := ofNone rfl

theorem orderFrame : Statement .orderFrame := ofNone rfl

theorem orderReplyFrame : Statement .orderReplyFrame := ofNone rfl

theorem transmitStart (rivals : List Byte) : Statement (.transmitStart rivals) := ofNone rfl

theorem attemptEnd (slot : SlotReading) : Statement (.attemptEnd slot) := ofNone rfl

theorem tripInputInactive (input : TripCause) : Statement (.tripInputInactive input) := ofNone rfl

theorem pwmCompareReached (coil : Nat) : Statement (.pwmCompareReached coil) := ofNone rfl

theorem loadingEnd : Statement .loadingEnd := ofNone rfl

end Sys2Proof.Laws.Bytes
end

