-- ==== Sys2Proof/Laws/Readings.lean ====
section
/-! SUPPORT. Where two rules differ and a free value stands between them (log entry 57): what each of its two values makes of
the operation that reads it. -/

namespace Sys2Proof.Machine

open Sys2Proof.Config

/-- By R61 and R57 a trip faults a mover as any other cause does (log entry 57). -/
theorem Station.tripFault_releases (h : tripKeepsHoldings = false) (st : Station) (m : MoverId) :
    st.tripFault m =
      if (st.entry? m).any (fun e => e.runsMotion && !e.motion.isFaulted) then st.enterFault m .driveTrip none else st := by
  unfold Station.tripFault
  cases he : st.entry? m with
  | none => rfl
  | some e => cases hr : e.runsMotion <;> cases hf : e.motion.isFaulted <;> simp [h, hr, hf]

/-- By R158's last paragraph a trip gives the claim up and leaves every holding (log entry 57). -/
theorem Station.tripFault_keeps (h : tripKeepsHoldings = true) {st : Station} {m : MoverId} {e : Entry}
    (he : st.entry? m = some e) (hs : e.state = .resident) (hf : e.motion.isFaulted = false) (ha : e.active.isSome = true)
    (ho : st.holdsOffBody e = true) : st.tripFault m = (st.giveUpClaim m).faulted e .driveTrip none := by
  simp [Station.tripFault, he, Entry.runsMotion, hs, hf, ha, ho, h]

end Sys2Proof.Machine
end

