-- ==== Sys2Proof/Laws/Safe.lean ====
section
/-! SUPPORT. The invariant `State.Safe` through the shared operations that the commands are made of: the end of an event,
a response, the first tests, the forming of an order, the work of an expiry, coil clocks, the end of LOADING. -/

namespace Sys2Proof.Machine

open Sys2Proof.Config


/-- The end of an event keeps the invariant when its station is tabled and bounded (R155, R166). -/
theorem State.Safe.commit {s : State} (h : s.Safe) {st : Station} (ht : st.Tabled) (hb : st.Bounded) : (s.commit st).Safe :=
  ⟨State.commit_consistent st h.reports, h.store, State.commit_limited ht hb⟩

/-- A response changes nothing of the invariant (R162). -/
theorem State.Safe.answer {s : State} (h : s.Safe) (q : Nat) (r : ResultCode) (d : ReplyData) : (s.answer q r d).Safe :=
  ⟨h.reports, h.store, h.station⟩

/-- The first tests of R163 keep the invariant when the command's own rule does. -/
theorem State.Safe.decide {s own : State} (h : s.Safe) (ho : own.Safe) (q : Nat) (a b : Bool) : (s.decide q a b own).Safe := by
  unfold State.decide State.answerPlain
  (repeat' split) <;> first | exact h.answer _ _ _ | exact ho

/-- An event of a running station keeps the invariant when its work is tabled and bounded. -/
theorem State.Safe.whenRunning {s : State} (h : s.Safe) (c : Bool) (w : Station → Station)
   (hw : (w s.station).Tabled ∧ (w s.station).Bounded) : (s.whenRunning c w).Safe := by
  unfold State.whenRunning
  split
  · exact h.commit hw.1 hw.2
  · exact h

/-- Work that keeps the kept fields and the tables keeps the invariant. -/
theorem State.Safe.kept {s : State} (h : s.Safe) (c : Bool) (w : Station → Station) (ht : (w s.station).Tabled) (hk : (w s.station).kept = s.station.kept) :
   (s.whenRunning c w).Safe := h.whenRunning c w ⟨ht, h.station.bounded.of_kept hk⟩

/-- A consistent report state in place of another. -/
theorem State.Safe.reportsTo {s : State} (h : s.Safe) {r : Reports} (hr : r.Consistent) : ({ s with reports := r } : State).Safe := ⟨hr, h.store, h.station⟩

/-- A canonical store in place of another. -/
theorem State.Safe.storeTo {s : State} (h : s.Safe) {r : Store} (hr : r.Canonical) : ({ s with store := r } : State).Safe := ⟨h.reports, hr, h.station⟩

/-- The taking of a frame (R107 to R109). -/
theorem State.Safe.take {s : State} (h : s.Safe) (w) : (s.take w).Safe :=
  h.whenRunning _ _ ⟨Station.tabled_takeFrame h.station.tabled, h.station.bounded.takeFrame w⟩

/-- A command of the store (R174). -/
theorem State.Safe.storeCommand {s own : State} (h : s.Safe) (ho : own.Safe) (q : Nat) (a b : Bool) : (s.storeCommand q a b own).Safe := by
  unfold State.storeCommand State.answerPlain
  refine h.decide ?_ _ _ _
  (repeat' split) <;> first | exact h.answer _ _ _ | exact ho

/-- The station at its reset values is within its limits (R111). -/
theorem Station.atReset_limited (a b) : (Station.atReset a b).Limited := by
  refine ⟨⟨by simp [Station.atReset, Station.movers], by simp [Station.atReset, Station.movers], by simp [Station.atReset]⟩, ?_, ?_, ?_, ?_, ?_, ?_, ?_, ?_⟩ <;> simp [Station.atReset, SideRecord.ofNeighbour, Coil.atReset, Switches.off, Switches.noShootThrough]

/-- A zone made FREE with an empty list (R37). -/
theorem Station.Tabled.modifyFresh {st : Station} (h : st.Tabled) (k : Nat) : (st.modifyZone k fun _ => Zone.fresh).Tabled :=
  Station.tabled_modifyZone h fun z _ _ => by refine ⟨?_, ?_, ?_⟩ <;> simp [Zone.fresh]

/-- A list without repeats is no longer than a list that holds all its members. -/
theorem length_le_of_nodup_subset : ∀ (l m : List Nat), l.Nodup → (∀ x ∈ l, x ∈ m) → l.length ≤ m.length
  | [], _, _, _ => Nat.zero_le _
  | a :: l, m, hn, hs => by
    have ha := hs a (List.mem_cons_self ..)
    have hn' := List.nodup_cons.1 hn
    have := length_le_of_nodup_subset l (m.erase a) hn'.2 fun x hx =>
      (List.mem_erase_of_ne (fun e : x = a => hn'.1 (e ▸ hx))).2 (hs x (List.mem_cons_of_mem _ hx))
    rw [List.length_erase_of_mem ha] at this
    have hp := List.length_pos_of_mem ha
    simp only [List.length_cons]
    omega

/-- With a free entry in the pending order table, the tag of a new order is held by no entry (R125). -/
theorem Station.freeTag_new (st : Station) (hl : st.orders.length < orderTableSize) : st.freeTag ∉ st.orders.map PendingOrder.tag := by
  unfold Station.freeTag
  cases hf : List.find? (fun t => !st.orders.any (·.tag = t))
    ((List.range orderTableSize).map fun i => (st.nextTag + i) % 256) with
  | some t =>
    have := List.find?_some hf
    simp only [Option.getD_some, List.mem_map, not_exists, not_and]
    intro o ho e
    simp at this
    exact this o ho e
  | none =>
    exfalso
    have hall : ∀ t ∈ (List.range orderTableSize).map (fun i => (st.nextTag + i) % 256), t ∈ st.orders.map PendingOrder.tag := by
      intro t ht
      have := List.find?_eq_none.1 hf t ht
      simpa using this
    have hn : ((List.range orderTableSize).map (fun i => (st.nextTag + i) % 256)).Nodup := by
      simp [orderTableSize, List.range_succ]
      omega
    have := length_le_of_nodup_subset _ _ hn hall
    simp at this
    omega

/-- The forming of an order (R125). -/
theorem State.Safe.form {s : State} (h : s.Safe) (q m k) : (s.formOrder q m k).Safe := by
  unfold State.formOrder State.answerPlain
  split
  · exact h.answer _ _ _
  rename_i hl
  refine State.Safe.answer (h.commit (st := s.station.addOrder m k) (h.station.tabled.same rfl rfl) ?_) _ _ _
  have hb := h.station.bounded
  simp [orderTableSize] at hl
  refine ⟨hb.lower, hb.upper, hb.rxQueue, hb.sendList, ?_, ?_, hb.watchList⟩
  · simp [Station.addOrder, Station.bump, orderTableSize]; omega
  · simp only [Station.addOrder, Station.bump, List.map_append]
    rw [List.nodup_append]
    refine ⟨hb.orderTags, by simp, ?_⟩
    intro a ha b hb' e
    simp at hb'
    subst hb' e
    exact Station.freeTag_new _ (by simpa [orderTableSize] using hl) ha

/-- MOVE, ABORT and CLEAR decided on the mover's entry (R124). -/
theorem State.Safe.order {s : State} (h : s.Safe) (q m k d) : (s.orderCommand q m k d).Safe := by
  unfold State.orderCommand State.refuse
  (repeat' split) <;> first | exact h.answer _ _ _ | exact h.form _ _ _ | exact State.Safe.answer (h.commit (by simp [h.station.tabled]) (h.station.bounded.of_kept (by simp))) _ _ _

/-- The work of an expiry, with the stalled head tested before or after it (R46, R109). -/
theorem State.Safe.expiry {s : State} (h : s.Safe) (b : Bool) : (s.expiry b).Safe := by
  have ht := h.station.tabled
  have hb := h.station.bounded
  have c1 : s.station.countPeriod.Tabled := ht.same rfl rfl
  have c2 : s.station.countPeriod.Bounded := hb.shrink rfl rfl rfl (Nat.le_refl _) (Nat.le_refl _) (List.Sublist.refl _) rfl
  unfold State.expiry
  dsimp only
  have hw : (s.commit (if b then s.station.countPeriod.retestHead.periodWork else s.station.countPeriod.periodWork)).Safe := by
    refine h.commit ?_ ?_
    · split
      · exact Station.tabled_periodWork (Station.tabled_retestHead c1)
      · exact Station.tabled_periodWork c1
    · split
      · exact c2.retestHead.periodWork
      · exact c2.periodWork
  generalize s.commit _ = w at hw
  have ha : ({ w with reports := s.reports.aged w.reports, free := s.free + 1 } : State).Safe := by
    refine ⟨?_, hw.store, hw.station⟩
    unfold Reports.aged; split
    · exact hw.reports.tick
    · exact hw.reports
  split
  · exact ha
  · exact ha.commit (Station.tabled_retestHead ha.station.tabled) ha.station.bounded.retestHead

/-- A coil clock (R154, R156). -/
theorem Station.Limited.coilClock {st : Station} (h : st.Limited) : st.coilClock.Limited := by
  unfold Station.coilClock
  split
  · have hb := h.bounded
    refine ⟨h.tabled.same rfl rfl, ⟨hb.lower, hb.upper⟩, hb.rxQueue, hb.sendList, hb.orders, hb.orderTags, hb.watchList,
      Station.refreshOutputs_legs _, h.outbox⟩
  · exact h

/-- Coil clocks up to an event. -/
theorem Station.Limited.until (hit live) : ∀ (n) {st t : Station}, st.Limited → st.clocksUntil hit live n = some t → t.Limited
  | 0, _, _, _, hh => by simp [Station.clocksUntil] at hh
  | n+1, st, t, h, hh => by
    unfold Station.clocksUntil at hh
    dsimp only at hh
    split at hh
    · cases hh; exact h.coilClock
    split at hh
    · exact Station.Limited.until hit live n h.coilClock hh
    · cases hh

/-- Coil clocks up to an event, when it comes. -/
theorem State.Safe.after {s : State} (h : s.Safe) (a b n) : (s.afterClocks (s.station.clocksUntil a b n)).Safe := by
  refine ⟨h.reports, h.store, ?_⟩
  unfold State.afterClocks
  cases hh : s.station.clocksUntil a b n with
  | none => exact h.station
  | some t => exact h.station.until _ _ _ hh

/-- The end of LOADING with its record, or without one (R111, R112). -/
theorem State.Safe.loaded {s : State} (h : s.Safe) (n) : (s.station.loaded s.store n).Tabled ∧ (s.station.loaded s.store n).Bounded := by
  have ht := h.station.tabled
  have hb := h.station.bounded
  unfold Station.loaded
  split
  · rename_i r hr
    have hr' : r.lower ≠ some r.address ∧ r.upper ≠ some r.address := by
      unfold Store.record? at hr
      split at hr
      · unfold recordOfPage at hr
        dsimp only at hr
        split at hr
        · rename_i hc
          cases hr
          simp only [neighbourOfByte]
          have h1 := hc.2.2.2.2.2.2.2.2.2.2.2.2.2.2.2.1
          constructor <;> split <;> simp_all <;> omega
        · cases hr
      · cases hr
    have hz : ∀ z ∈ s.store.zoneTable r.coils, z.Tidy := by
      intro z hz
      simp [Store.zoneTable] at hz
      obtain ⟨k, _, rfl⟩ := hz
      split <;> refine ⟨?_, ?_, ?_⟩ <;> simp [Zone.fresh]
    constructor
    · unfold Station.configured
      dsimp only
      split <;> exact ⟨ht.ascending, ht.size, hz⟩
    · unfold Station.configured
      dsimp only
      split <;> exact ⟨by simpa [Station.own, Station.conf, Station.bump, Station.report, SideRecord.ofNeighbour] using hr'.1, by simpa [Station.own, Station.conf, Station.bump, Station.report, SideRecord.ofNeighbour] using hr'.2, hb.rxQueue, hb.sendList, hb.orders, hb.orderTags, hb.watchList⟩
  · exact ⟨Station.tabled_report (ht.same rfl rfl), (hb.shrink (st' := { s.station with mode := .unconfigured }) rfl rfl rfl (Nat.le_refl _) (Nat.le_refl _) (List.Sublist.refl _) rfl).of_kept (Station.report_kept _ _)⟩

end Sys2Proof.Machine
end

