-- ==== Sys2Proof/Laws/Taking.lean ====
section
/-! SUPPORT. The taking of a frame (R107 to R109): a frame that stands ready is handed on, and nothing else of the receive
queue moves. The statements about the takings of frames rest on `Station.takeFrame_ready`. -/

namespace Sys2Proof.Machine

/-- Stations whose kept fields agree have the same receive queue and stalled mark. -/
theorem Station.rx_of_kept {st st' : Station} (h : st'.kept = st.kept) :
    st'.rxQueue = st.rxQueue ∧ st'.rxStalled = st.rxStalled :=
  ⟨congrArg Station.Kept.rxQueue h, congrArg Station.Kept.rxStalled h⟩

/-- The receive queue and its stalled mark after a purge (R118). -/
theorem Station.purge_rx (st : Station) (n : Address) (d : Side) :
    (st.purge n d).rxQueue = st.rxQueue ∧ (st.purge n d).rxStalled = st.rxStalled := by
  have h1 : ((st.report (.neighbourRestart n)).purgeZones n).kept = st.kept := by simp
  have h2 := Station.kept_foldl (fun (st : Station) m => st.purgeVisitor n m) (fun st m => by simp)
    ((st.report (.neighbourRestart n)).purgeZones n).movers ((st.report (.neighbourRestart n)).purgeZones n)
  have h3 : ∀ ms (st : Station), (List.foldl (fun (st : Station) m =>
      if (st.entry? m).any (·.handingTo n) then st.endHandover m .handoverLost none else st) st ms).kept = st.kept :=
    fun ms st => Station.kept_foldl _ (fun st m => by split <;> simp) ms st
  unfold Station.purge
  dsimp only
  have h2' := h2.trans h1
  generalize List.foldl (fun (st : Station) m => st.purgeVisitor n m) _ _ = v at h2' ⊢
  have h3' := (h3 v.movers v).trans h2'
  generalize List.foldl _ v v.movers = w at h3' ⊢
  have h4 := Station.rx_of_kept h3'
  cases d <;> exact h4

/-- The receive queue and its stalled mark while a station becomes ONLINE (R115). -/
theorem Station.becomeOnline_rx (st : Station) :
    st.becomeOnline.rxQueue = st.rxQueue ∧ st.becomeOnline.rxStalled = st.rxStalled := by
  have h : ∀ (st : Station) (d : Side),
      (if (st.side d).state = .unheard then st.closeSide d .lost else st).kept = st.kept := by
    intro st d; split <;> simp
  have := Station.rx_of_kept ((h _ .upper).trans (h { st with mode := .online } .lower))
  exact this

/-- A frame handed on leaves the receive queue and its stalled mark as they are. -/
theorem Station.handOn_rx (st : Station) (n : Address) (f : Frame) :
    (st.handOn n f).rxQueue = st.rxQueue ∧ (st.handOn n f).rxStalled = st.rxStalled := by
  cases f with
  | present p =>
    simp only [Station.handOn, Station.presentFrom]
    split
    · exact ⟨rfl, rfl⟩
    · rename_i d _
      have h1 : (if p.fresh && (st.side d).state.heard then st.purge n d else st).rxQueue = st.rxQueue ∧
          (if p.fresh && (st.side d).state.heard then st.purge n d else st).rxStalled = st.rxStalled := by
        split
        · exact Station.purge_rx st n d
        · exact ⟨rfl, rfl⟩
      generalize (if p.fresh && (st.side d).state.heard then st.purge n d else st) = purged at h1 ⊢
      have h2 : ((purged.judgePresent d p).neighbourDrive d p.drive).kept = purged.kept := by simp
      generalize (purged.judgePresent d p).neighbourDrive d p.drive = applied at h2 ⊢
      have h4 := Station.rx_of_kept h2
      split <;> split <;>
        simp only [(Station.becomeOnline_rx _).1, (Station.becomeOnline_rx _).2,
          (Station.rx_of_kept (Station.owePresent_kept _ _ _)).1, (Station.rx_of_kept (Station.owePresent_kept _ _ _)).2,
          h4.1, h4.2, h1.1, h1.2, and_self]
  | orderReply t m r =>
    simp only [Station.handOn, Station.replyFrom]
    (repeat' split) <;> exact ⟨rfl, rfl⟩
  | notice d => exact Station.rx_of_kept (by simp [Station.handOn])
  | claim m g b => exact Station.rx_of_kept (by simp [Station.handOn])
  | cancel m g => exact Station.rx_of_kept (by simp [Station.handOn])
  | grant m g => exact Station.rx_of_kept (by simp [Station.handOn])
  | queued m g p => exact Station.rx_of_kept (by simp [Station.handOn])
  | denied m g r => exact Station.rx_of_kept (by simp [Station.handOn])
  | deferred m g => exact Station.rx_of_kept (by simp [Station.handOn])
  | release m a c => exact Station.rx_of_kept (by simp [Station.handOn])
  | handover c => exact Station.rx_of_kept (by simp [Station.handOn])
  | taken m => exact Station.rx_of_kept (by simp [Station.handOn])
  | refused m r => exact Station.rx_of_kept (by simp [Station.handOn])
  | track m p v d => exact Station.rx_of_kept (by simp [Station.handOn])
  | order t m k => exact Station.rx_of_kept (by simp [Station.handOn])

/-- A head that is not stalled is not tested again. -/
theorem Station.retestIfFreed_unstalled {st : Station} (before : Station) (h : st.rxStalled = false) :
    st.retestIfFreed before = st := by
  unfold Station.retestIfFreed Station.retestHead
  rw [h]
  split <;> rfl

/-- A frame that passes its checks is of a known kind (R181). -/
theorem knownKind_of_parsed {kind : Nat} {payload : List Byte} {fr : Frame} (h : parseFrame kind payload = some fr) :
    knownKind kind = true := by
  unfold parseFrame at h
  split at h <;> first | rfl | cases h

/-- With a known kind at its head, the queue loses nothing to unknown kinds (R181). -/
theorem Station.dropUnknown_known {st : Station} {f : RxFrame} {rest : List RxFrame} (h : st.rxQueue = f :: rest)
    (hk : knownKind f.kind = true) : st.dropUnknown = st := by
  unfold Station.dropUnknown
  simp [h, hk]

/-- A ready frame to this station or to all leaves the queue and is handed on; a TAKEN addressed to this station is first
shown to the watch table (R107, R134). -/
theorem Station.takeFrame_ready {st : Station} {f : RxFrame} {rest : List RxFrame} {fr : Frame} {wanted : RxFrame → Bool}
    (h : st.Ready f rest fr) (hw : wanted f = true) (hd : ∀ m, fr = .taken m → st.overheard f = false) :
    st.takeFrame wanted =
      (match fr with
        | .taken m => if f.destination = st.own then ({ st with rxQueue := rest } : Station).watchTaken f m
            else { st with rxQueue := rest }
        | _ => { st with rxQueue := rest }).handOn f.source fr := by
  have hs : ∀ st' : Station, st'.rxStalled = false →
      ({ st' with rxQueue := rest, rxStalled := false } : Station) = { st' with rxQueue := rest } := by
    intro st' h'; cases st'; cases h'; rfl
  have hset : ∀ st' : Station, st'.rxStalled = false → st'.openNeighbour f.source = st.openNeighbour f.source →
      st'.sendsFree = st.sendsFree → st'.sendsNeeded f.source fr = st.sendsNeeded f.source fr →
      st'.settleHead f rest fr = ({ st' with rxQueue := rest } : Station).handOn f.source fr := by
    intro st' h1 h2 h3 h4
    unfold Station.settleHead
    have hf : (fr.neighbourKind && !st'.openNeighbour f.source) = false := by
      rw [h2]
      cases hk : fr.neighbourKind with
      | false => rfl
      | true => rw [h.notForeign hk]; rfl
    rw [hf, h3, h4, if_neg (by decide), if_neg (Nat.not_lt.2 h.room), hs st' h1]
  have hrx : ∀ st' : Station, st'.rxStalled = false → (st'.handOn f.source fr).rxStalled = false :=
    fun st' h' => (Station.handOn_rx st' _ _).2.trans h'
  have hwt : ∀ (st' : Station) (m : MoverId), (st'.watchTaken f m).rxStalled = st'.rxStalled := by
    intro st' m; unfold Station.watchTaken; split <;> rfl
  have hwq : ∀ m : MoverId, ({ st.watchTaken f m with rxQueue := rest } : Station) =
      ({ st with rxQueue := rest } : Station).watchTaken f m := by
    intro m
    unfold Station.watchTaken
    have : ({ st with rxQueue := rest } : Station).watches m = st.watches m := rfl
    rw [this]
    split <;> rfl
  have head : st.takeHead f rest = (match fr with
      | .taken m => if f.destination = st.own then ({ st with rxQueue := rest } : Station).watchTaken f m
          else { st with rxQueue := rest }
      | _ => { st with rxQueue := rest }).handOn f.source fr := by
    unfold Station.takeHead
    rw [h.parsed]
    cases fr with
    | taken m =>
      dsimp only
      rw [if_neg (by simp [hd m rfl])]
      by_cases ho : f.destination = st.own
      · rw [if_pos ho, if_pos ho, hset (st.watchTaken f m) ((hwt st m).trans h.unstalled)]
        · rw [hwq m]
        · unfold Station.watchTaken; split <;> rfl
        · unfold Station.watchTaken; split <;> rfl
        · unfold Station.watchTaken; split <;> rfl
      · rw [if_neg ho, if_neg ho, hset st h.unstalled rfl rfl rfl]
    | _ => exact hset st h.unstalled rfl rfl rfl
  have hun : (st.takeHead f rest).rxStalled = false := by
    rw [head]
    refine hrx _ ?_
    (repeat' split) <;> first | exact h.unstalled | exact (hwt _ _).trans h.unstalled
  have hcl : (if st.rxStalled then st else st.dropUnknown) = st := by
    rw [if_neg (by simp [h.unstalled])]
    exact Station.dropUnknown_known h.head (knownKind_of_parsed h.parsed)
  unfold Station.takeFrame
  rw [if_neg (by simp [h.runs])]
  dsimp only
  rw [hcl]
  split
  · rename_i hq; rw [h.head] at hq; cases hq
  · rename_i f' rest' _ hq
    rw [h.head] at hq
    cases hq
    rw [if_pos hw, Station.retestIfFreed_unstalled _ hun]
    exact head
  · rename_i hq _; rw [h.unstalled] at hq; cases hq

end Sys2Proof.Machine
end

