-- ==== Sys2Proof/Tests/Slice0.lean ====
section
/-! SUPPORT. Tests: ill-formed operands that `Instr.wellFormed` refuses, worked values of the datasheet, and for every
statement of Certificates/Slice0/Obligations.lean that has premises a concrete state and operands that meet them, with
each clause at a boundary value of its range (`test_meets_<statement>`). Commands run here on small states built by the
helpers of the first section. -/

namespace Sys2Proof.Tests

open Sys2Proof Sys2Proof.Machine

-- One theorem at a time: the kernel evaluations wait for one another, and each waiting one would hold a thread.
set_option Elab.async false

/-! ## Small states -/

/-- Station 5 between 4 and 6, with zones 8 to 15. -/
def conf : Record :=
  { address := 5, lower := some 4, upper := some 6, origin := 24000, coils := 8, periodCode := 0, rateCode := 0,
    followLimit := 200, zoneWaitLimit := 100, gain := 64, stopAccel := 8, pwmTop := 600, deadtime := 4,
    idle := ⟨false, true, false, true⟩ }

/-- A side record whose side is OPEN toward `n`. -/
def opened (n : Address) : SideRecord :=
  { SideRecord.ofNeighbour (some n) with state := .opened, openedSinceLoading := true, drive := some .on }

/-- The station ONLINE with its drive ON, both sides OPEN, the own zones FREE. -/
def online : Station :=
  { Station.atReset 0 false with
    mode := .online, record := some conf, zones := List.replicate 8 Zone.fresh, lowerSide := opened 4,
    upperSide := opened 6, drive := .on, nextPlace := 20, pwm := { running := true, count := 0, up := true } }

/-- The state with that station, everything else as after a pin reset. -/
def on (st : Station) : State := { State.reset with station := st }

/-- The station with one entry. -/
def having (st : Station) (e : Entry) : Station := { st with entries := [e] }

/-- A RESIDENT at a position, seen there. -/
def resident (m : MoverId) (p : Position) : Entry :=
  { Entry.blank m .resident with owner := some 5, setpoint := p, actual := some p }

/-- A VISITOR owned by `n`. -/
def visitor (m : MoverId) (n : Address) : Entry := { Entry.blank m .visitor with owner := some n }

/-- A HANDING entry whose HANDOVER to `n` was sent `attempts` times and waits for its answer. -/
def handing (m : MoverId) (p : Position) (n : Address) (attempts : Nat) : Entry :=
  { resident m p with
    state := .handing
    handover := some { target := n, travelled := none, phase := .awaiting, attempts := attempts, waiting := 7 } }

/-- The station with own zone k HELD by m for n. -/
def hold (st : Station) (k : Nat) (m : MoverId) (n : Address) : Station :=
  st.modifyZone k fun z => { z with state := .held m n }

/-- The station with a claim of m for n at the end of zone k's wait list. -/
def waits (st : Station) (k : Nat) (m : MoverId) (n : Address) : Station :=
  st.modifyZone k fun z =>
    { z with waiting := z.waiting ++ [{ mover := m, station := n, entryFlag := false, queuedOwed := none }] }

/-- A frame from `n` to station 5. -/
def sentBy (n : Address) (f : Frame) : RxFrame :=
  { source := n, destination := 5, kind := f.kind, payload := f.payload }

/-- The station with that one frame in its receive queue. -/
def receiving (st : Station) (n : Address) (f : Frame) : Station := { st with rxQueue := [sentBy n f] }

/-- The mark of a due send at a place. -/
def due (place : Nat) : Due := { place, tries := 0, pass := 0 }

/-- A move record: to `target` at speed 12, acceleration 4. -/
def moveTo (target : Position) : MoveRecord :=
  { tag := 7, target, speed := 12, accel := 4, dwell := none, report := true }

/-- The next state's station, or the same station where there is none. -/
def after (c : Instr) (st : Station) : Station :=
  match exec c (on st) with
  | .next t => t.station
  | _ => st

/-- The result code and data of the next state's response. -/
def answerOf (c : Instr) (s : State) : Option (ResultCode × ReplyData) :=
  match exec c s with
  | .next t => t.port.response.map fun r => (r.result, r.data)
  | _ => none

/-- The reports that a command adds. -/
def reported (c : Instr) (st : Station) : List ReportBody :=
  match exec c (on st) with
  | .next t => t.reports.queue.map fun r => r.body
  | _ => []

/-- A report state with `n` reports, by the rules that add them. -/
def queued (n : Nat) : Reports := (List.replicate n ReportBody.joined).foldl (fun r b => r.add 0 b) Reports.atReset

/-- What `Station.Ready` asks of the one frame of the receive queue, computed. -/
def readyCheck (st : Station) (f : RxFrame) (fr : Frame) : Bool :=
  st.running && !st.rxStalled && decide (st.rxQueue = [f]) && decide (parseFrame f.kind f.payload = some fr) &&
    (!fr.neighbourKind || st.openNeighbour f.source) && decide (st.sendsNeeded f.source fr ≤ st.sendsFree)

theorem ready_of_check {st : Station} {f : RxFrame} {fr : Frame} (h : readyCheck st f fr = true) :
    st.Ready f [] fr := by
  simp only [readyCheck, Bool.and_eq_true, decide_eq_true_eq, Bool.not_eq_true', Bool.or_eq_true] at h
  obtain ⟨⟨⟨⟨⟨h1, h2⟩, h3⟩, h4⟩, h5⟩, h6⟩ := h
  refine ⟨h1, h2, h3, h4, fun hk => ?_, h6⟩
  rcases h5 with h5 | h5
  · simp [hk] at h5
  · exact h5

/-- What `Station.Tabled` asks, computed. -/
def tabledCheck (st : Station) : Bool :=
  decide (st.movers.Pairwise (· < ·)) && decide (st.movers.length ≤ Config.tableSize) &&
    st.zones.all fun z => decide (z.waiting.length ≤ Config.waitListSize) &&
      decide (z.waiting.map WaitClaim.mover).Nodup && z.waiting.all fun c => !z.state.heldBy c.mover

theorem tabled_of_check {st : Station} (h : tabledCheck st = true) : st.Tabled := by
  simp only [tabledCheck, Bool.and_eq_true, decide_eq_true_eq, List.all_eq_true, Bool.not_eq_true'] at h
  obtain ⟨⟨h1, h2⟩, h3⟩ := h
  exact ⟨h1, h2, fun z hz => ⟨(h3 z hz).1.1, (h3 z hz).1.2, (h3 z hz).2⟩⟩

theorem queued_consistent (n : Nat) : (queued n).Consistent :=
  Reports.Consistent.addAll Reports.Consistent.atReset 0 (List.replicate n ReportBody.joined)

/-! ## Operands that no byte or pin can bring -/

theorem test_wellFormed_accepts :
    ((Instr.status 255).wellFormed && (Instr.readReports 0 255).wellFormed && (Instr.setMitigation 1 31 255).wellFormed &&
      (Instr.move 9 65535 ⟨65535, 16777215, 65535, 255, 65535, 255⟩).wellFormed && (Instr.readZone 0 65535).wellFormed &&
      (Instr.watchSet 0 2 (List.replicate 62 1)).wellFormed && (Instr.storeStage 0 255 (List.replicate 124 0)).wellFormed &&
      (Instr.trackLoss 4095).wellFormed && (Instr.tripInputActive (.coil 15)).wellFormed &&
      (Instr.pwmCompareReached 15).wellFormed && (Instr.malformedMessage (some 255)).wellFormed) = true := by decide +kernel

theorem test_wellFormed_refuses :
    [Instr.status 256, .malformedMessage (some 256), .readReports 0 256, .setMitigation 0 0 256, .abort 0 65536,
      .move 0 65536 ⟨0, 0, 0, 0, 0, 0⟩, .move 0 1 ⟨65536, 0, 0, 0, 0, 0⟩, .move 0 1 ⟨0, 16777216, 0, 0, 0, 0⟩,
      .move 0 1 ⟨0, 0, 65536, 0, 0, 0⟩, .move 0 1 ⟨0, 0, 0, 256, 0, 0⟩, .move 0 1 ⟨0, 0, 0, 0, 65536, 0⟩,
      .move 0 1 ⟨0, 0, 0, 0, 0, 256⟩, .watchSet 0 256 [], .watchSet 0 0 [65536], .watchSet 0 0 (List.replicate 63 1),
      .storeStage 0 256 [], .storeStage 0 0 (List.replicate 125 0), .trackLoss 0, .dwellEnd 4096, .orderTimeout 256,
      .tripInputActive (.coil 16), .tripInputInactive (.coil 16), .deadtimeElapsed 16 .ah, .pwmCompareReached 16].all
      (fun c => !c.wellFormed) = true := by decide +kernel

/-! ## Worked values of the datasheet -/

/-- R48 with the numbers of section 3.8. -/
theorem test_stopDistance : stopDistance 4 4 = 4 ∧ stopDistance 8 4 = 12 ∧ stopDistance 12 4 = 24 := by decide +kernel

/-- The steps of section 3.8, expiries P1 to P11: speed before, limit, step. -/
theorem test_worked_profile :
    [(0, 100), (4, 96), (8, 88), (12, 76), (12, 28), (12, 16), (8, 8), (4, 4)].map
      (fun x => nextSpeed x.1 4 12 x.2) = [4, 8, 12, 12, 12, 8, 4, 4] := by decide +kernel

/-- The station of section 3.8 before expiry P1. -/
def workedProfile : Station :=
  let a : Record := { conf with origin := 30000, coils := 10, followLimit := 500, zoneWaitLimit := 200 }
  let st : Station :=
    { online with
      record := some a, zones := List.replicate 10 Zone.fresh
      entries := [{ resident 120 42900 with queue := [moveTo 47400] }, resident 130 48500] }
  hold (hold (hold (hold st 3 120 5) 4 120 5) 5 130 5) 6 130 5

/-- Expiry P1 of section 3.8: the step, the claim that waits, the demand. -/
theorem test_first_expiry_of_worked_profile :
    ((workedProfile.workEntry 120).entry? 120).any (fun e => e.motion = .moving && e.setpoint = 42904 &&
      e.velocity = 4 && e.demand = 36 && e.claim.any fun c => c.zone = 15 && c.phase = .queued) = true := by
  decide +kernel

/-- The recompute at P1 in section 9.5. -/
theorem test_compares_of_worked_drive :
    driveOfDuty (coilDuty (zoneCentre 13) 42904 36) 2000 = .drive .minus 72 ∧
    driveOfDuty (coilDuty (zoneCentre 14) 42904 36) 2000 = .drive .plus 72 := by decide +kernel

/-- Section 10.7 up to period 503, and at the timer's end. -/
theorem test_worked_mitigation :
    let r := (((Reports.atReset.setMasks 16).setMitigation 3 10).add 500 (.watchOwner 120 6 5)).add 503 (.moveDone 120 7)
    (r.queue.length, r.timerRunning, r.timerCount, r.lineAsserted) = (2, true, 0, false) ∧
    (Nat.repeat Reports.tick 9 r).lineAsserted = false ∧ (Nat.repeat Reports.tick 10 r).lineAsserted = true ∧
    ((Nat.repeat Reports.tick 10 r).ack 1 false).lineAsserted = false := by decide +kernel

/-- The checks of R92 and R183 over the digits 1 to 9. -/
theorem test_checks :
    let digits := (List.range 9).map fun i => BitVec.ofNat 8 (49 + i)
    crc16 digits = 0x29B1#16 ∧ crc8 digits = 0xF4#8 := by decide +kernel

/-- Position and body of R1 to R4 at both ends of the track. -/
theorem test_body_at_the_ends : bodyZones 0 = [0] ∧ bodyZones 2000 = [0, 1] ∧ bodyZones 4001 = [0, 1, 2] ∧
    bodyZones 16774001 = [5590, 5591] ∧ bodyZones 16777215 = [5591] := by decide +kernel

/-! ## Premises of the statements: the port -/

/-- Every command of the port, in range. -/
def portCommands : List Instr :=
  [.status 7, .readReports 7 1, .ackFlags 7 0, .setMask 7 0, .setMitigation 7 1 0, .move 7 1 ⟨0, 0, 1, 4, 0, 0⟩,
    .abort 7 1, .clear 7 1, .halt 7, .adopt 7 1, .forget 7 1, .block 7 8, .unblock 7 8, .driveOn 7, .driveOff 7,
    .readMover 7 0, .readZone 7 8, .readSides 7, .watchSet 7 0 [], .maintenance 7, .storeRead 7 0, .storeErase 7 0,
    .storeStage 7 0 [], .storeCommit 7 0, .storeClearBuffer 7, .restart 7]

/-- Commands with one parameter just outside its range, with a station state that takes each. -/
def outOfRange : List (Instr × Mode) :=
  [(.readReports 7 0, .online), (.readReports 7 9, .online), (.setMitigation 7 32 0, .online),
    (.move 7 0 ⟨0, 0, 1, 4, 0, 0⟩, .online), (.move 7 4096 ⟨0, 0, 1, 4, 0, 0⟩, .online),
    (.move 7 1 ⟨0, 0, 0, 4, 0, 0⟩, .online), (.move 7 1 ⟨0, 0, 401, 4, 0, 0⟩, .online),
    (.move 7 1 ⟨0, 0, 1, 3, 0, 0⟩, .online), (.move 7 1 ⟨0, 0, 1, 41, 0, 0⟩, .online), (.abort 7 0, .online),
    (.clear 7 4096, .online), (.adopt 7 0, .online), (.forget 7 0, .maintenance), (.readMover 7 4096, .joining),
    (.block 7 5592, .online), (.unblock 7 5592, .online), (.readZone 7 5592, .online), (.watchSet 7 3 [], .online),
    (.watchSet 7 0 (List.replicate 17 1), .online), (.watchSet 7 0 [0], .online), (.storeRead 7 2, .unconfigured),
    (.storeErase 7 2, .maintenance), (.storeCommit 7 2, .maintenance), (.storeStage 7 64 [], .maintenance),
    (.storeStage 7 254 [], .unconfigured)]

/-- Every command meets the premise of `WholeMessageIsAnsweredAndRefusalsChangeNothing`, and with LOADING, which takes
none, the first clause of `FirstTestsAnswerStateOrBadParam`; the parameters out of range meet its second. -/
theorem test_meets_FirstTests :
    (portCommands.all fun c => portSeq c = some 7 && paramsInRange c && !takenIn c .loading &&
      (answerOf c (on { online with mode := .loading })).any (·.1 = .state)) = true ∧
    (outOfRange.all fun x => portSeq x.1 = some 7 && takenIn x.1 x.2 && !paramsInRange x.1 &&
      (answerOf x.1 (on { online with mode := x.2 })).any (·.1 = .badParam)) = true := by decide +kernel

theorem test_meets_MessageForm :
    commandOfMessage [] false = .nullMessage ∧ commandOfMessage [0, 9] false = .nullMessage ∧
    commandOfMessage [2, 9] false = .malformedMessage (some 9) ∧ commandOfMessage [3] false = .malformedMessage none ∧
    commandOfMessage [4, 9, 1] false = .malformedMessage (some 9) ∧
    commandOfMessage [3, 9, 1] true = .malformedMessage (some 9) ∧ commandOfMessage [3, 9, 1] false = .status 9 ∧
    commandOfMessage [3, 9, 255] false = .malformedMessage (some 9) := by decide +kernel

/-- A null message over nine bytes is null; after a response the bytes shifted out end in FFh. -/
theorem test_meets_MessageForm_shifted :
    commandOfMessage [0, 9] true = .nullMessage ∧
    (match exec .nullMessage { on online with port := { response := some ⟨9, .ok, .empty⟩, shifted := [] } } with
      | .next t => (List.range 5).map t.port.shiftedByte
      | _ => []) = [3, 9, 0, 0xFF, 0xFF] := by decide +kernel

/-- The bytes held: the empty response, plain and refused answers, and a report with every item but the station. -/
theorem test_meets_MessageForm_response :
    responseBytes none = [0] ∧ responseBytes (some ⟨9, .state, .empty⟩) = [3, 9, 6] ∧
    responseBytes (some ⟨255, .refused, .tripActive .supply⟩) = [5, 255, 3, 13, 16] ∧
    responseBytes (some ⟨0, .refused, .reason .queueFull⟩) = [4, 0, 3, 5] ∧
    responseBytes (some ⟨1, .ok, .numbers 12 3⟩) = [5, 1, 0, 12, 3] ∧
    responseBytes (some ⟨3, .ok, .flags 0x2B⟩) = [4, 3, 0, 0x2B] ∧
    responseBytes (some ⟨2, .ok, .reports [⟨258, 5, .zoneDenied 300 16 7 .blocked⟩] 4 1⟩) =
      [25, 2, 0, 1, 1, 2, 0, 0, 0, 5, 0, 4, 11, 1, 44, 0, 16, 63, 0, 7, byte (denialCode .blocked), 0, 0, 4, 1] := by
  decide +kernel

theorem test_meets_CommandMessageRoundTrip :
    [Instr.status 0, .move 255 65535 ⟨65535, 16777215, 65535, 255, 65535, 255⟩, .watchSet 1 2 [1, 65535],
      .storeStage 2 255 [0, 255]].all (fun c => c.wellFormed &&
        (messageOfCommand c).any fun bs => commandOfTransaction (bs.flatMap byteBits) = c) = true := by decide +kernel

theorem test_meets_StatusCopiesTheItems :
    [Mode.unconfigured, .joining, .online, .maintenance].all (fun m =>
      decide ((on { online with mode := m }).station.mode ≠ .loading) &&
        (answerOf (.status 7) (on { online with mode := m })).any (·.1 = .ok)) = true := by decide +kernel

/-- READ REPORTS at the counts where its clauses meet, with 9 reports queued. -/
theorem test_meets_ReadReports : (queued 9).Consistent ∧ (on online).station.mode.started = true ∧
    [(0, ResultCode.badParam), (1, .ok), (8, .ok), (9, .badParam)].all (fun x =>
      (answerOf (.readReports 7 x.1) { on online with reports := queued 9 }).any (·.1 = x.2)) = true :=
  ⟨queued_consistent 9, rfl, by decide +kernel⟩

/-- Consistent report states for ACK FLAGS, SET MASK and SET MITIGATION: the STATION flag alone left unmasked or not,
the line asserted or the timer running. -/
theorem test_meets_FlagCommands :
    ((queued 1).Consistent ∧ (queued 1).lineAsserted = true ∧ (queued 1).anyUnmasked = true ∧
      ((queued 1).ack 32 true).anyUnmasked = false ∧ ((queued 1).ack 0 false).anyUnmasked = true) ∧
    (((queued 1).setMasks 63).Consistent ∧ ((queued 1).setMasks 63).anyUnmasked = false ∧
      (((queued 1).setMasks 63).setMasks 31).anyUnmasked = true) ∧
    let aging := (Reports.atReset.setMitigation 31 255).add 0 .joined
    aging.Consistent ∧ aging.timerRunning = true ∧ aging.lineAsserted = false ∧
      (aging.setMitigation 1 255).lineAsserted = true ∧ (aging.setMitigation 2 255).timerRunning = true :=
  ⟨⟨queued_consistent 1, by decide +kernel⟩, ⟨(queued_consistent 1).setMasks _, by decide +kernel⟩,
    (Reports.Consistent.atReset.setMitigation 31 255).add 0 .joined, by decide +kernel⟩

/-- A full queue and one with one place left; a report that starts the age timer; and the timer at its end. -/
theorem test_meets_ReportJoins :
    ((queued 32).Consistent ∧ (queued 32).queue.length = 32 ∧ (queued 31).Consistent ∧ (queued 31).queue.length < 32) ∧
    (let r := Reports.atReset.setMitigation 2 1
     r.Consistent ∧ r.flags.getLsbD 5 = false ∧ r.masks.getLsbD 5 = false ∧ (r.add 0 .joined).lineAsserted = false ∧
       r.timerRunning = false ∧ 1 ≤ r.age) ∧
    let r := (Reports.atReset.setMitigation 2 1).add 0 .joined
    (on online).station.running = true ∧ r.Consistent ∧ r.timerRunning = true ∧ r.age ≤ r.timerCount + 1 ∧
      (match exec .ageTimerExpiry { on online with reports := r } with
        | .next t => t.reports.lineAsserted
        | _ => false) = true :=
  ⟨⟨queued_consistent 32, by decide +kernel, queued_consistent 31, by decide +kernel⟩,
    ⟨Reports.Consistent.atReset.setMitigation 2 1, by decide +kernel⟩, rfl,
    (Reports.Consistent.atReset.setMitigation 2 1).add 0 .joined, by decide +kernel⟩

/-- The age timer at an expiry: below the age, at it, and stopped. -/
theorem test_meets_ReportJoins_tick :
    let r := (Reports.atReset.setMitigation 2 2).add 0 .joined
    r.Consistent ∧ r.timerRunning = true ∧ r.tick = { r with timerCount := 1 } ∧
      r.tick.tick = { r with timerCount := 2, lineAsserted := true, timerRunning := false } ∧
      r.tick.tick.tick = r.tick.tick :=
  ⟨(Reports.Consistent.atReset.setMitigation 2 2).add 0 .joined, by decide +kernel⟩

/-- A running timer that a report leaves, one that a report whose flag is set does not start, and one that the line stops. -/
theorem test_meets_ReportJoins_timer :
    let r := { (Reports.atReset.setMitigation 3 2).add 0 .joined with timerCount := 1 }
    let stopped := { r with timerRunning := false }
    r.timerRunning = true ∧ (r.add 0 .joined).lineAsserted = false ∧ (r.add 0 .joined).timerCount = 1 ∧
      (stopped.add 0 .joined).timerRunning = false ∧ ((r.add 0 .joined).add 0 .joined).lineAsserted = true ∧
      ((r.add 0 .joined).add 0 .joined).timerRunning = false := by decide +kernel

/-- A coil whose request is on and one whose request is off, with the drive not ON. -/
theorem test_meets_EventEnds :
    let st : Station := { online with drive := .off }
    st.coils[0]? = some Coil.atReset ∧ (st.request 0 Coil.atReset).al = true ∧ (st.request 0 Coil.atReset).ah = false ∧
      ((on online).commit st).station.coils[0]?.map Coil.outputs = some ⟨false, true, false, true⟩ := by decide +kernel

/-- With the drive ON: a switch turned on after its deadtime, one that waits for it, one turned off. -/
theorem test_meets_EventEnds_deadtime :
    let c : Coil := { Coil.atReset with applied := .drive .plus 1, outputs := ⟨false, false, true, false⟩,
                                        offClocks := ⟨0, 4, 0, 3⟩ }
    let st : Station := { online with coils := [c] }
    st.request 0 c = ⟨true, false, false, true⟩ ∧
      ((on online).commit st).station.coils[0]?.map (fun x => (x.outputs, x.offClocks)) =
        some (⟨true, false, false, false⟩, ⟨0, 4, 0, 3⟩) := by decide +kernel

/-- A state that meets the invariant and is not the reset state. -/
theorem test_meets_StepKeepsSafe : (on (having online (resident 1 30000))).Safe :=
  ⟨Reports.Consistent.atReset, ⟨rfl, rfl, rfl, by decide⟩,
    ⟨tabled_of_check (by decide +kernel), by decide +kernel, by decide +kernel, by decide +kernel, by decide +kernel,
      by decide +kernel, by decide +kernel, by decide +kernel, rfl⟩⟩

/-- A HANDOVER at the ends of its ranges. -/
def edgeHandover : HandoverContent :=
  { mover := 4095, motion := .stopping, setpoint := 16777215, velocity := -400, dwellRemaining := 65535,
    zoneWaitCount := 65535, claim := some { zone := 5591, phase := .deferred, sends := 3, periods := 8 },
    receiverRun := (5576, 16), senderRun := (65535, 0), denied := some (0, .noAnswer), active := some (moveTo 16777215),
    queue := [moveTo 0], flushedAtStop := 8 }

/-- A frame of every kind at the ends of its ranges reads back as written; the longest HANDOVER parses back. -/
theorem test_meets_FrameRoundTrip :
    [Frame.present ⟨16776000 - 48000, 16, none, some 62, true, false, .tripped .supply⟩, .notice (.tripped (.coil 15)),
      .claim 4095 5591 true, .cancel 1 0, .grant 1 5591, .queued 4095 0 4, .denied 1 5591 .blocked, .deferred 1 0,
      .release 1 5576 16, .handover edgeHandover, .taken 4095, .refused 1 .state, .track 1 16777215 (-400) (-1000),
      .order 255 1 (.move (moveTo 0)), .orderReply 0 4095 .retry].all (fun f =>
        f.ok && match readLine (wireBits f.priority 62 63 f ++ [true]) with
          | .frame r => decide (parseFrame r.kind r.payload = some f)
          | _ => false) = true ∧
    (let long := Frame.handover { edgeHandover with queue := List.replicate 8 (moveTo 0) }
     long.ok = true ∧ long.payload.length ≤ 128 ∧ parseFrame 10 long.payload = some long) := by decide +kernel

/-- The body lengths where the clauses of `BodyTouchesZones` meet. -/
theorem test_meets_BodyTouchesZones :
    [(2000, 2), (4000, 2), (4001, 3), (4999, 3), (5000, 2), (16774000, 2)].all
      (fun x => decide ((bodyZones x.1).length = x.2)) = true := by decide +kernel

/-- READ MOVER for the list, a mover with no entry, and entries with and without own zones. -/
theorem test_meets_ReadMover :
    let st : Station := hold { online with entries := [resident 1 30000, visitor 4095 4] } 7 4095 4
    st.mode.started = true ∧ st.Tabled ∧ st.entry? 2 = none ∧ (st.entry? 1).isSome = true ∧ st.holdings 1 = [] ∧
      (st.holdings 4095).head? = some 7 ∧ answerOf (.readMover 7 2) (on st) = some (.notFound, .empty) :=
  ⟨rfl, tabled_of_check (by decide +kernel), by decide +kernel⟩

/-- Eight loose sends: a full Send List. -/
def fullSends : List LooseSend := (List.range 8).map fun i => ⟨4, .taken 9, due i⟩

/-- FORGET at a full Send List with one send to make, with one place left, and of a STRAY and a HANDING. -/
theorem test_meets_Forget :
    let owing := { resident 1 30000 with takenDue := some (4, due 9) }
    let st := having online owing
    let full : Station := { st with sendList := fullSends }
    let one : Station := { st with sendList := fullSends.drop 1 }
    st.Tabled ∧ st.entry? 2 = none ∧ full.entry? 1 = some owing ∧ one.entry? 1 = some owing ∧
      8 - full.sendList.length < (full.forgetSends owing).length ∧
      (one.forgetSends owing).length ≤ 8 - one.sendList.length ∧
      answerOf (.forget 7 1) (on full) = some (.busy, .empty) ∧
      answerOf (.forget 7 1) (on one) = some (.ok, .numbers 0 1) ∧
      answerOf (.forget 7 1) (on (having online (handing 1 30000 6 1))) = some (.refused, .reason .inTransit) ∧
      answerOf (.forget 7 1) (on (having online (Entry.blank 1 .stray))) = some (.ok, .numbers 0 0) :=
  ⟨tabled_of_check (by decide +kernel), by decide +kernel⟩

/-- FORGET of a STRAY leaves no entry; of a RESIDENT, its zones are as after a reset. -/
theorem test_meets_Forget_frees :
    let stray := having online (Entry.blank 1 .stray)
    let waiting := waits (hold stray 0 2 4) 0 1 4
    (after (.forget 7 1) stray).entries = [] ∧ waiting.Tabled ∧ (after (.forget 7 1) waiting).entries = [] ∧
    (after (.forget 7 1) (hold (having online (resident 1 30000)) 1 1 5)).zones = List.replicate 8 Zone.fresh :=
  ⟨by decide +kernel, tabled_of_check (by decide +kernel), by decide +kernel⟩

/-- The sends of a RESIDENT's forgetting, each run as long as it can be, and those of a VISITOR's. -/
theorem test_meets_Forget_sends :
    let e := { resident 9 46000 with
      takenDue := some (4, due 9), remoteUpper := [16, 17], releaseUpper := some { zones := [18, 20], due := due 3 },
      cancelDue := some (7, due 4), claim := some { zone := 21, phase := .sent, sends := 1, periods := 0, place := 0 } }
    (having online e).forgetSends e = [(4, .taken 9), (6, .release 9 16 3), (6, .release 9 20 1), (4, .cancel 9 7),
      (6, .cancel 9 21)] ∧
    (let st := waits (having online (visitor 9 4)) 7 9 4
     st.forgetSends (visitor 9 4) = [(4, .denied 9 15 .state)]) := by decide +kernel

/-- A freed entry goes to the first list whose head waits for one; once it is taken, the next such list is not examined,
though its head could be decided (R28). -/
theorem test_offer_stops_when_taken :
    let asks := fun (st : Station) (k : Nat) (m : MoverId) => st.modifyZone k fun z =>
      { z with waiting := z.waiting ++ [{ mover := m, station := 4, entryFlag := true, queuedOwed := none }] }
    let full : Station := { online with entries := (List.range 12).map fun i => Entry.blank (100 + i) .stray }
    let st := asks (asks (asks full 0 9) 1 9) 4 10
    let t := after (.forget 7 100) st
    st.Tabled ∧ (t.zone? 0).map (fun z => (z.state, z.waiting.length)) = some (.held 9 4, 0) ∧
      [1, 4].all (fun k => decide ((t.zone? k).map (fun z => (z.state, z.waiting.length)) = some (.free, 1))) = true :=
  ⟨tabled_of_check (by decide +kernel), by decide +kernel⟩

/-- BLOCK and UNBLOCK on both sides of the segment's ends, and on an own zone in each state. -/
theorem test_meets_BlockAndUnblock :
    let st := waits (waits (hold (online.modifyZone 7 fun z => { z with state := .blocked }) 1 3 5) 0 1 4) 0 2 5
    let full : Station := { st with sendList := fullSends }
    st.mode.started = true ∧ [7, 16].all (fun g => decide (st.localIndex g = none) &&
        decide (answerOf (.block 7 g) (on st) = some (.refused, .reason .outOfSegment))) = true ∧
      st.localIndex 8 = some 0 ∧ st.localIndex 15 = some 7 ∧
      answerOf (.block 7 8) (on st) = some (.ok, .number 2) ∧ answerOf (.block 7 8) (on full) = some (.busy, .empty) ∧
      answerOf (.block 7 9) (on st) = some (.refused, .reason .zoneBusy) ∧
      answerOf (.block 7 15) (on st) = some (.ok, .number 0) ∧ answerOf (.unblock 7 15) (on st) = some (.ok, .empty) ∧
      ((after (.unblock 7 15) st).zone? 7) = some Zone.fresh ∧ answerOf (.unblock 7 8) (on st) = some (.ok, .empty) := by
  decide +kernel

/-- A local claim on a zone that is blocked. -/
theorem test_meets_BlockAndUnblock_local :
    let st := waits (having online { resident 1 30000 with claim := some (Claim.localQueued 8) }) 0 1 5
    st.claims 1 0 = true ∧ ((after (.block 7 8) st).entry? 1).any
      (fun e => e.claim.isNone && e.denied = some (8, .blocked)) = true := by decide +kernel

theorem test_meets_ReadsCopy :
    online.mode.started = true ∧ online.localIndex 7 = none ∧ online.localIndex 16 = none ∧
      online.localIndex 8 = some 0 ∧ online.localIndex 15 = some 7 ∧ online.zones[7]? = some Zone.fresh ∧
      answerOf (.readZone 7 15) (on online) = some (.ok, .zone 7 Zone.fresh) ∧
      (answerOf (.readSides 7) (on online)).any (·.1 = .ok) = true := by decide +kernel

/-! ## Premises of the statements: zones and claims -/

/-- The frame from `n` stands ready at the station (`ready_of_check`). -/
def ready (st : Station) (n : Address) (f : Frame) : Bool := readyCheck (receiving st n f) (sentBy n f) f

/-- The last loose send after a frame from `n` is taken by its row. -/
def reply (c : Instr) (st : Station) (n : Address) (f : Frame) : Option Frame :=
  ((after c (receiving st n f)).sendList.getLast?).map LooseSend.content

/-- Twelve VISITORs: a full Mover Table. -/
def fullTable : List Entry := (List.range 12).map fun i => visitor (100 + i) 4

/-- Four claims waiting on zone 0. -/
def fullList : Station := waits (waits (waits (waits online 0 1 4) 0 2 4) 0 3 4) 0 5 4

/-- Each test of R23 and each outcome of R24, in their order, for a CLAIM of mover 9 from station 4. -/
theorem test_meets_ClaimIsDecided :
    ([(online, 7, true, some (.denied 9 7 .outOfSegment)),
      (online, 16, true, some (.denied 9 16 .outOfSegment)),
      ({ online with mode := .joining }, 8, true, some (.denied 9 8 .state)),
      (online, 8, false, some (.denied 9 8 .state)),
      (having online (visitor 9 6), 8, true, some (.denied 9 8 .state)),
      (hold (having online (visitor 9 4)) 0 9 4, 8, false, some (.grant 9 8)),
      (waits (waits (having online (visitor 9 4)) 0 2 4) 0 9 4, 8, false, some (.queued 9 8 2)),
      ({ online with drive := .off }, 8, true, some (.denied 9 8 .drive)),
      (online.modifyZone 0 fun z => { z with state := .blocked }, 8, true, some (.denied 9 8 .blocked)),
      (hold (having online (visitor 9 4)) 0 9 4, 10, false, some (.denied 9 10 .state)),
      (fullList, 8, true, some (.deferred 9 8))] :
        List (Station × ZoneNo × Bool × Option Frame)).all (fun x =>
      ready x.1 4 (.claim 9 x.2.1 x.2.2.1) &&
        decide (reply .claimFrame x.1 4 (.claim 9 x.2.1 x.2.2.1) = x.2.2.2)) = true ∧
    ([(online, 15, true), (having online (Entry.blank 9 .stray), 8, true),
      (hold (having online (visitor 9 4)) 0 9 4, 9, false), (hold (having online (handing 9 30000 4 1)) 1 9 4, 8, false)] :
        List (Station × ZoneNo × Bool)).all (fun x =>
      ready x.1 4 (.claim 9 x.2.1 x.2.2) &&
        (after .claimFrame (receiving x.1 4 (.claim 9 x.2.1 x.2.2))).holds 9 (x.2.1 - 8)) = true ∧
    ([(hold online 0 1 5, 8, true), (waits (waits (waits online 0 1 4) 0 2 4) 0 3 4, 8, true),
      ({ online with entries := fullTable }, 8, true)] : List (Station × ZoneNo × Bool)).all (fun x =>
      ready x.1 4 (.claim 9 x.2.1 x.2.2) &&
        (after .claimFrame (receiving x.1 4 (.claim 9 x.2.1 x.2.2))).claims 9 0) = true := by decide +kernel

/-- A RELEASE and a CANCEL that are accepted, and ones that are not: held for another station, a run broken, an own
zone not named. -/
theorem test_meets_ReleaseAndCancel :
    let st := hold (hold (hold (having online (visitor 9 4)) 0 9 4) 1 9 4) 2 9 4
    let own := waits (having online (visitor 9 4)) 1 9 4
    st.Tabled ∧ own.Tabled ∧
    ([(st, .release 9 8 2, [false, false, true]), (st, .release 9 9 1, [true, true, true]),
      (hold st 1 9 6, .release 9 9 2, [true, true, true]), (st, .release 9 5577 15, [true, true, true]),
      (hold (hold (hold (having online (handing 9 30000 4 1)) 0 9 5) 1 9 5) 2 9 5, .release 9 10 1, [true, true, false])] :
        List (Station × Frame × List Bool)).all (fun x =>
      ready x.1 4 x.2.1 &&
        decide ((List.range 3).map ((after .releaseFrame (receiving x.1 4 x.2.1)).holds 9) = x.2.2)) = true ∧
    ([(st, .cancel 9 7, [true, true, true]), (st, .cancel 9 8, [false, true, true]), (st, .cancel 9 9, [true, true, true]),
      (st, .cancel 9 15, [true, true, true])] : List (Station × Frame × List Bool)).all (fun x =>
      ready x.1 4 x.2.1 &&
        decide ((List.range 3).map ((after .cancelFrame (receiving x.1 4 x.2.1)).holds 9) = x.2.2)) = true ∧
    ready own 4 (.cancel 9 9) = true ∧ (after .cancelFrame (receiving own 4 (.cancel 9 9))).claims 9 1 = false ∧
    ready own 6 (.cancel 9 9) = true ∧ (after .cancelFrame (receiving own 6 (.cancel 9 9))).claims 9 1 = true :=
  ⟨tabled_of_check (by decide +kernel), tabled_of_check (by decide +kernel), by decide +kernel⟩

/-- A VISITOR left with nothing by a RELEASE, by a CANCEL of its zone and by one of its claim. -/
theorem test_meets_ReleaseAndCancel_visitor :
    let st := hold (having online (visitor 9 4)) 0 9 4
    let own := waits (having online (visitor 9 4)) 1 9 4
    ready st 4 (.release 9 8 1) = true ∧ (after .releaseFrame (receiving st 4 (.release 9 8 1))).entries = [] ∧
    (after .cancelFrame (receiving st 4 (.cancel 9 8))).entries = [] ∧
    (after .cancelFrame (receiving own 4 (.cancel 9 9))).entries = [] := by decide +kernel

/-- What a RELEASE of zone 8 makes of its list: a local head, an ordinary one, an entry claim, one in conflict and the next
one; two with the drive not ON; and an entry claim while the table is full (R27 to R29). -/
theorem test_meets_ReleaseAndCancel_lists :
    let asks := fun (st : Station) (m : MoverId) => st.modifyZone 0 fun z =>
      { z with waiting := z.waiting ++ [{ mover := m, station := 6, entryFlag := true, queuedOwed := none }] }
    let others := [{ resident 1 30000 with claim := some (.localQueued 8) }, visitor 3 6, visitor 9 4]
    let st := hold (hold { online with entries := others } 0 9 4) 1 9 4
    let full : Station := { st with entries := others ++ (List.range 9).map fun i => visitor (100 + i) 4 }
    let freed := fun (x : Station) => after .releaseFrame (receiving x 4 (.release 9 8 1))
    let off : Station := { st with drive := .off }
    st.Tabled ∧ full.Tabled ∧
    ([(waits st 0 1 5, some (.held 1 5, false, []), []), (waits (waits st 0 3 6) 0 1 5, some (.held 3 6, true, [1]), []),
      (asks st 7, some (.held 7 6, true, []), []),
      (waits (waits st 0 2 6) 0 1 5, some (.held 1 5, false, []), [(6, .denied 2 8 .state)]),
      (waits (waits off 0 2 6) 0 1 5, some (.free, false, []), [(6, .denied 2 8 .drive)]),
      (asks full 7, some (.free, false, [7]), [])] :
        List (Station × Option (ZoneState × Bool × List MoverId) × List (Address × Frame))).all (fun x =>
      decide (((freed x.1).zone? 0).map (fun z => (z.state, z.grantOwed.isSome, z.waiting.map WaitClaim.mover)) = x.2.1) &&
        decide ((freed x.1).sendList.map (fun l => (l.destination, l.content)) = x.2.2)) = true ∧
    ((freed (waits st 0 1 5)).entry? 1).map Entry.claim = some none ∧
    ((freed (asks st 7)).entry? 7).map Entry.owner = some (some 6) ∧
    ((freed (waits off 0 1 5)).entry? 1).map Entry.denied = some (some (8, .drive)) :=
  ⟨tabled_of_check (by decide +kernel), tabled_of_check (by decide +kernel), by decide +kernel⟩

/-- A claim of zone 16, sent to station 6 once. -/
def sentClaim : Claim := { zone := 16, phase := .sent, sends := 1, periods := 3, place := 0 }

/-- A RESIDENT that claims zone 16. -/
def claiming : Station := having online { resident 9 46000 with claim := some sentClaim }

/-- A GRANT that matches, that finds the zone held already, that names no claim, and for each entry state. -/
theorem test_meets_Grant :
    ([(claiming, 6), (having online { resident 9 46000 with remoteUpper := [16] }, 6), (having online (visitor 9 6), 6),
      (having online (handing 9 46000 6 1), 6)] : List (Station × Address)).all (fun x =>
      ready x.1 x.2 (.grant 9 16) && (reply .grantFrame x.1 x.2 (.grant 9 16)).isNone) = true ∧
    ((after .grantFrame (receiving claiming 6 (.grant 9 16))).entry? 9).any (fun e => e.remote = [16] && e.claim.isNone) =
      true ∧
    ([(online, 6), (having online (Entry.blank 9 .stray), 6), (having online (visitor 9 4), 6),
      (having online (handing 9 46000 4 1), 6)] : List (Station × Address)).all (fun x =>
      ready x.1 x.2 (.grant 9 16) &&
        decide (reply .grantFrame x.1 x.2 (.grant 9 16) = some (.release 9 16 1))) = true ∧
    ready (having online (resident 9 46000)) 6 (.grant 9 16) = true ∧
    ((after .grantFrame (receiving (having online (resident 9 46000)) 6 (.grant 9 16))).entry? 9).any
      (fun e => e.releaseZones .upper = [16]) = true := by decide +kernel

/-- QUEUED, DENIED and DEFERRED that match the claim, and that match nothing. -/
theorem test_meets_ClaimAnswers :
    ([(.queuedFrame, .queued 9 16 4), (.deniedFrame, .denied 9 16 .blocked), (.deferredFrame, .deferred 9 16)] :
        List (Instr × Frame)).all (fun x =>
      ready claiming 6 x.2 && ready online 6 x.2 && ready claiming 4 x.2 &&
        decide ((after x.1 (receiving claiming 6 x.2)).entries ≠ claiming.entries) &&
        decide ((after x.1 (receiving claiming 4 x.2)).entries = claiming.entries)) = true := by decide +kernel

/-- The claim part for a RESIDENT at rest or on its way: an own zone granted, queued, denied; a neighbour's zone claimed,
closed, out of the track; nothing needed. -/
theorem test_meets_ClaimAnswers_claim :
    let e := resident 9 29999
    let going := { resident 9 44000 with motion := .moving, active := some (moveTo 60000), velocity := 12 }
    let all := fun (st : Station) => hold (hold st 6 9 5) 7 9 5
    ((having online e).claimPart 9).holds 9 1 = true ∧
    ([(hold online 1 1 5, e, some (.localQueued 9), none), ({ online with drive := .off }, e, none, some (9, .drive)),
      (online.modifyZone 1 fun z => { z with state := .blocked }, e, none, some (9, .blocked)),
      (hold online 5 9 5, e, none, some (9, .state)), (hold (hold online 1 9 5) 2 9 5, e, none, none),
      (all online, going, some { zone := 16, phase := .toSend, sends := 0, periods := 0, place := 0 }, none),
      (all { online with upperSide := { opened 6 with state := .closed .lost } }, going, none, some (16, .closed)),
      (all { online with upperSide := SideRecord.ofNeighbour none }, going, none, some (16, .outOfSegment))] :
        List (Station × Entry × Option Claim × Option (ZoneNo × DenialReason))).all (fun x =>
      (((having x.1 x.2.1).claimPart 9).entry? 9).any fun e =>
        decide (e.claim = x.2.2.1 ∧ e.denied = x.2.2.2)) = true := by
  decide +kernel

/-- Claims and a handover whose count reaches its end now, with sends or attempts left and without. -/
theorem test_meets_AnswerTimeouts :
    (on online).station.running = true ∧ online.localIndex 16 = none ∧
    ([(.sent, 2, some .toSend), (.sent, 3, none), (.queued, 1, some .toSend), (.deferred, 0, some .toSend)] :
        List (ClaimPhase × Nat × Option ClaimPhase)).all (fun x =>
      let c : Claim := { zone := 16, phase := x.1, sends := x.2.1, periods := 7, place := 0 }
      decide ((((after (.claimAnswerTimeout 9) (having online { resident 9 46000 with claim := some c })).entry? 9).bind
        fun e => e.claim.map fun c => c.phase) = x.2.2)) = true ∧
    (((after (.handoverAnswerTimeout 9) (having online (handing 9 48000 6 2))).entry? 9).map fun e => e.state) =
      some .handing ∧
    (((after (.handoverAnswerTimeout 9) (having online (handing 9 48000 6 3))).entry? 9).map fun e => e.motion) =
      some (.faulted .handoverLost) := by decide +kernel

/-- SENT and QUEUED claims sent once whose side has closed run out to NO_ANSWER; a DEFERRED one is due again. -/
theorem test_meets_AnswerTimeouts_closed :
    let st : Station := { online with upperSide := { opened 6 with state := .closed .lost } }
    ([(.sent, 1, none, some (16, .noAnswer)), (.queued, 1, none, some (16, .noAnswer)),
      (.deferred, 0, some .toSend, none)] :
        List (ClaimPhase × Nat × Option ClaimPhase × Option (ZoneNo × DenialReason))).all (fun x =>
      let c : Claim := { zone := 16, phase := x.1, sends := x.2.1, periods := 7, place := 0 }
      ((after (.claimAnswerTimeout 9) (having st { resident 9 46000 with claim := some c })).entry? 9).any fun e =>
        decide (e.claim.map Claim.phase = x.2.2.1 ∧ e.denied = x.2.2.2)) = true := by decide +kernel

/-- Counts that do not reach their end, and a local claim, which has none. -/
theorem test_meets_AnswerTimeouts_below :
    let c : Claim := { zone := 16, phase := .sent, sends := 1, periods := 6, place := 0 }
    (((having online { resident 9 46000 with claim := some c }).claimTimer 9).entry? 9).bind
      (fun e => e.claim.map Claim.periods) = some 7 ∧
    (having online { resident 9 46000 with claim := some { c with zone := 15 } }).claimTimer 9 =
      having online { resident 9 46000 with claim := some { c with zone := 15 } } ∧
    (let h := handing 9 48000 6 1
     let below := h.handover.map fun x => { x with waiting := 6 }
     (((having online { h with handover := below }).handoverTimer 9).entry? 9).bind
       fun e => e.handover.map Handover.waiting) = some 7 := by decide +kernel

/-! ## Premises of the statements: motion -/

/-- Each branch of the choice of R50, at the limits where they meet: v + a stops, v stops, v − a stops, the rest. -/
theorem test_meets_StepsKeepTheStop :
    stopDistance (min (8 + 4) 12) 4 ≤ 24 ∧ 23 < stopDistance (min (8 + 4) 12) 4 ∧ stopDistance 8 4 ≤ 12 ∧
      11 < stopDistance 8 4 ∧ stopDistance (8 - 4) 4 ≤ 4 ∧
      (nextSpeed 8 4 12 24, nextSpeed 8 4 12 23, nextSpeed 8 4 12 12, nextSpeed 8 4 12 11, nextSpeed 4 4 12 3,
        nextSpeed 0 4 12 3) = (12, 8, 8, 4, 3, 3) := by decide +kernel

/-- The hold distance both ways, at zones that count, that do not, and at the ends of the track. -/
theorem test_meets_StepsKeepTheStop_hold :
    let e := resident 9 30000
    let st := hold (hold (hold (having online e) 1 9 5) 2 9 5) 4 9 5
    let far := { e with remoteUpper := [16, 17], setpoint := 47000 }
    (st.holdDistance e 1, st.holdDistance e (-1), (hold st 3 9 5).holdDistance e 1) = (1000, 1000, 7000) ∧
    online.holdDistance e 1 = 0 ∧ online.holdDistance e (-1) = 0 ∧
    (hold online 7 9 5).holdDistance far 1 = 5000 ∧
    (({ online with upperSide := { opened 6 with state := .closed .lost } } : Station).holdDistance far 1) = 0 ∧
    st.holdDistance { e with setpoint := 1999 } (-1) = 0 ∧ st.holdDistance { e with setpoint := 16776000 } 1 = 0 ∧
    (hold st 1 9 6).holdDistance { e with state := .handing } (-1) = 0 := by decide +kernel

theorem test_meets_ControlPeriodExpiry :
    ({ online with mode := .unconfigured } : Station).running = false ∧ online.running = true ∧ online.rxStalled = false ∧
      { online with periodCount := 4294967295 }.countPeriod.periodCount = 0 := by decide +kernel

/-- A stalled head tested again: taken, discarded as foreign, still stalled. -/
theorem test_meets_ControlPeriodExpiry_retest :
    let stalled : Station := { receiving online 4 (.claim 9 16 true) with rxStalled := true }
    let foreign : Station := { receiving online 9 (.claim 9 16 true) with rxStalled := true }
    stalled.retestHead.sendList.map LooseSend.content = [.denied 9 16 .outOfSegment] ∧
      foreign.retestHead.linkCounters.foreignFrames = 1 ∧ foreign.retestHead.rxQueue = [] ∧
      { stalled with sendList := fullSends }.retestHead = { stalled with sendList := fullSends } := by decide +kernel

/-- The work of an entry: a STRAY's is its timers', an idle RESIDENT on its zones starts its move and steps. -/
theorem test_meets_ControlPeriodExpiry_parts :
    let idle := { resident 9 30000 with queue := [moveTo 40000] }
    let st := hold (hold (having online idle) 1 9 5) 2 9 5
    let leaving := having online { resident 9 48000 with claim := some sentClaim }
    let behind := hold (hold (having online { resident 9 35000 with remoteLower := [7] }) 1 9 5) 5 9 5
    let atEdge := having online (resident 9 46001)
    st.Tabled ∧ leaving.Tabled ∧ behind.Tabled ∧ atEdge.Tabled ∧
    ((having online (Entry.blank 9 .stray)).workEntry 9) = having online (Entry.blank 9 .stray) ∧
    ((st.startPart 9).entry? 9).map (fun e => (e.motion, e.queue)) = some (.moving, []) ∧
    ((({ st with drive := .off } : Station).startPart 9).entry? 9).map (fun e => e.motion) = some .idle ∧
    ((leaving.transferPart 9).entry? 9).map (fun e => (e.state, e.claim, e.handover.map Handover.target)) =
      some (.handing, none, some 6) ∧
    ((having online (resident 9 47999)).transferPart 9) = having online (resident 9 47999) ∧
    (((behind.releasePart 9 1).entry? 9).map fun e => (e.remote, e.releaseZones .lower)) = some ([], [7]) ∧
    ((behind.releasePart 9 1).holdings 9) = [5] ∧ (behind.releasePart 9 (-1)).holdings 9 = [1] :=
  ⟨tabled_of_check (by decide +kernel), tabled_of_check (by decide +kernel), tabled_of_check (by decide +kernel),
    tabled_of_check (by decide +kernel), by decide +kernel⟩

/-- The demand with the drives of the assigned coils, and TRACK raised and cleared. -/
theorem test_meets_ControlPeriodExpiry_demand :
    let st := hold (hold (having online { resident 9 30000 with actual := some 29990, velocity := 4 }) 1 9 5) 2 9 5
    let coils := (st.demandPart 9 0).coils.map fun c => (c.assigned, c.preloaded)
    ((st.demandPart 9 0).entry? 9).map (fun e => e.demand) = some 42 ∧
    (coils[0]?, coils[1]?, coils[2]?) = (some (none, .unassigned), some (some 9, .drive .minus 25), some (some 9, .drive .plus 25)) ∧
    let atEdge := having online (resident 9 46001)
    let due' := having online { resident 9 46000 with trackDue := some (.upper, due 3) }
    ((atEdge.trackPart 9).entry? 9).map (fun e => e.trackDue) = some (some (.upper, due 20)) ∧
    ((due'.trackPart 9).entry? 9).map (fun e => e.trackDue) = some none := by decide +kernel

/-- A mover on its way: to the target, to the hold limit, to the hold limit with a denied claim, or short of both. -/
def travelling (target : Position) (denied : Option (ZoneNo × DenialReason)) : Station :=
  hold (hold (having online { resident 9 30000 with
    motion := .moving, active := some (moveTo target), velocity := 4, denied }) 1 9 5) 2 9 5

theorem test_meets_MovingStep :
    ([(travelling 40000 none, 30996, .zoneWait), (travelling 40000 none, 30900, .moving),
      (travelling 40000 (some (11, .blocked)), 30996, .idle), (travelling 31000 none, 30996, .idle)] :
        List (Station × Position × Motion)).all (fun x =>
      let st := x.1.modifyEntry 9 fun e => { e with setpoint := x.2.1 }
      ((st.stepMoving 9).entry? 9).any fun e => decide (e.motion = x.2.2)) = true := by decide +kernel

/-- A stop with speed left, at its end for a RESIDENT and a HANDING entry, and at the hold limit. -/
theorem test_meets_MovingStep_stopping :
    let st := fun (v : Int) => hold (hold (having online { resident 9 30000 with
      motion := .stopping, active := some (moveTo 40000), velocity := v, flushedAtStop := 2 }) 1 9 5) 2 9 5
    (st 12).Tabled ∧ ((st 12).entry? 9).isSome = true ∧
    (((st 12).stepStopping 9).entry? 9).map (fun e => (e.setpoint, e.velocity, e.motion)) = some (30004, 4, .stopping) ∧
    (((st (-12)).stepStopping 9).entry? 9).map (fun e => e.setpoint) = some 29996 ∧
    (((st 8).stepStopping 9).entry? 9).map (fun e => e.motion) = some .idle ∧
    ((st 8).stepStopping 9).outbox = [.moveAborted 9 (some 7) 2] :=
  ⟨tabled_of_check (by decide +kernel), by decide +kernel⟩

/-- A RESIDENT over zones 9 and 10 that holds zones 11 and 16 ahead and waits for zone 12. -/
def reaching : Station :=
  let e := { resident 9 30000 with
    active := some (moveTo 40000), zoneWaitCount := 100, remoteUpper := [16], claim := some (Claim.localQueued 12)
    lossCount := 3, followCount := 2 }
  waits (hold (hold (hold (hold (having online e) 1 9 5) 2 9 5) 3 9 5) 4 3 5) 4 9 5

/-- `reaching` with its mover's entry changed. -/
def reachingWith (f : Entry → Entry) : Station := reaching.modifyEntry 9 f

/-- The holdings off the body are released and the claim is withdrawn, and nothing else leaves mover 9. -/
def retracted (st : Station) : Bool :=
  st.holdings 9 = [1, 2] && (st.zone? 3).any (fun z => z = Zone.fresh) && (st.claimedZones 9).isEmpty &&
    (st.entry? 9).any fun e => e.remote.isEmpty && e.claim.isNone && e.releaseZones .upper = [16]

/-- Every end of a move, and both counts' faults, at a mover with zones ahead. -/
theorem test_meets_MoveEnds :
    let waiting := fun e : Entry => { e with motion := .zoneWait, active := some (moveTo 10), setpoint := 29000 }
    reaching.Tabled ∧ reaching.ClaimInPlace ((reaching.entry? 9).getD (Entry.blank 9 .stray)) ∧
    [(reachingWith fun e => { e with motion := .stopping }).stepStopping 9,
      (reachingWith fun e => { e with motion := .moving, active := some (moveTo 30001) }).stepMoving 9,
      (reachingWith fun e => { waiting e with denied := some (8, .blocked) }).timedPart 9,
      after (.zoneTimeout 9) (reachingWith waiting),
      after (.abort 1 9) (reachingWith fun e => { e with motion := .dwell }),
      after (.halt 1) (reachingWith fun e => { e with motion := .zoneWait }),
      after (.followCountExpiry 9) (reachingWith fun e => { e with motion := .moving, actual := some 20000 }),
      after (.lossCountExpiry 9) (reachingWith fun e => { e with motion := .moving })].all retracted = true ∧
    (let st := hold (hold (hold (having online { handing 9 48000 6 3 with remoteUpper := [16, 17] }) 5 9 5) 6 9 5) 7 9 5
     [after (.handoverAnswerTimeout 9) st, after .refusedFrame (receiving st 6 (.refused 9 .unknown))].all fun t =>
       t.holdings 9 = [7] && (t.entry? 9).any fun e => e.remote = [16] && e.releaseZones .upper = [17]) = true :=
  ⟨tabled_of_check (by decide +kernel), by
    intro p hp _ _
    have : p.1 = 4 := by revert p; decide +kernel
    exact ⟨Claim.localQueued 12, by decide +kernel, this ▸ by decide +kernel⟩, by decide +kernel, by decide +kernel⟩

/-- A dwell and a zone wait that end at their next count. -/
theorem test_meets_DwellAndZoneWait :
    let dwelling := { resident 9 30000 with motion := .dwell, active := some (moveTo 30000), dwellRemaining := 1 }
    let waiting := { resident 9 31000 with
      motion := .zoneWait, active := some (moveTo 40000), zoneWaitCount := 100, claim := some (Claim.localQueued 11) }
    let st := hold (hold (having online waiting) 1 9 5) 2 9 5
    online.running = true ∧ ((after (.dwellEnd 9) (having online dwelling)).entry? 9).map (fun e => e.motion) = some .idle ∧
      st.holdDistance waiting 1 = 0 ∧ st.conf.zoneWaitLimit < min (waiting.zoneWaitCount + 1) 65536 ∧
      reported (.zoneTimeout 9) st = [.zoneTimeout 9 (some 11) 7] := by decide +kernel

/-- A dwell and a zone wait counted, a wait that ends at room or at a denied zone, and an entry in neither. -/
theorem test_meets_DwellAndZoneWait_counts :
    let dwelling := { resident 9 30000 with motion := .dwell, active := some (moveTo 30000), dwellRemaining := 2 }
    let waiting := { resident 9 31000 with motion := .zoneWait, active := some (moveTo 40000), zoneWaitCount := 5 }
    let at' := fun (e : Entry) => hold (hold (having online e) 1 9 5) 2 9 5
    let timed := fun (st : Station) => ((st.timedPart 9).entry? 9).map fun e => (e.motion, e.dwellRemaining, e.zoneWaitCount)
    timed (at' dwelling) = some (.dwell, 1, 0) ∧ timed (at' { waiting with setpoint := 30900 }) = some (.moving, 0, 5) ∧
      timed (at' waiting) = some (.zoneWait, 0, 6) ∧
      ((at' { waiting with denied := some (11, .blocked) }).timedPart 9).outbox = [.zoneDenied 9 11 7 .blocked] ∧
      timed (at' { waiting with active := none }) = some (.moving, 0, 5) ∧ timed (at' (resident 9 30000)) = some (.idle, 0, 0) := by
  decide +kernel

/-- A follow count that reaches 3 on either side of the setpoint, and loss counts that reach 4. -/
theorem test_meets_CountsEndInFaults :
    ([resident 9 30000, handing 9 30000 6 1] : List Entry).all (fun e =>
      [(30201, [ReportBody.moverFault 9 .follow 0 none]), (30200, []), (29799, [.moverFault 9 .follow 0 none])].all
        fun x => decide (reported (.followCountExpiry 9)
          (having online { e with actual := some x.1, followCount := 2 }) = x.2)) = true ∧
    reported (.lossCountExpiry 9) (having online { resident 9 24000 with lossCount := 3 }) =
      [.moverFault 9 .lost 0 none] ∧
    reported (.lossCountExpiry 9) (having online { resident 9 47999 with lossCount := 3, motion := .faulted .follow }) = [] ∧
    (after (.lossCountExpiry 9) (having online { Entry.blank 9 .stray with lossCount := 3 })).entries = [] ∧
    ((after (.lossCountExpiry 9) (waits (having online { Entry.blank 9 .stray with lossCount := 3, owner := some 4 })
      0 9 4)).entries).length ≤ 1 := by decide +kernel

/-- Follow counts below their end, on either side of the limit. -/
theorem test_meets_CountsEndInFaults_below :
    let st := fun (p : Position) (n : Nat) => having online { resident 9 30000 with actual := some p, followCount := n }
    ([(30201, 0, 1), (30201, 1, 2), (30200, 2, 0), (29800, 1, 0), (29799, 1, 2)] : List (Position × Nat × Nat)).all (fun x =>
      (((st x.1 x.2.1).followCheck 9).entry? 9).any fun e => e.followCount = x.2.2) = true := by decide +kernel

/-- The motion states in which MOVE, ABORT and CLEAR answer differently. -/
theorem test_meets_MoveAbortClear :
    let p : MoveParams := ⟨7, 40000, 400, 40, 65535, 3⟩
    moveFieldsOk p = true ∧ moveFieldsOk ⟨0, 0, 1, 4, 0, 0⟩ = true ∧
    ([({ resident 9 30000 with queue := List.replicate 7 (moveTo 0) }, (.ok, .empty)),
      ({ resident 9 30000 with queue := List.replicate 8 (moveTo 0) }, (.refused, .reason .queueFull)),
      ({ resident 9 30000 with motion := .stopping }, (.refused, .reason .stopping)),
      ({ resident 9 30000 with motion := .faulted .lost }, (.refused, .reason .faulted)),
      (handing 9 30000 6 1, (.refused, .reason .inTransit)), (Entry.blank 9 .stray, (.refused, .reason .stray))] :
        List (Entry × ResultCode × ReplyData)).all (fun x =>
      decide (answerOf (.move 7 9 p) (on (having online x.1)) = some x.2)) = true ∧
    ([(.moving, [], .stopping), (.zoneWait, [.moveAborted 9 (some 7) 1], .idle),
      (.dwell, [.moveAborted 9 (some 7) 1], .idle)] : List (Motion × List ReportBody × Motion)).all (fun x =>
      let st := having online { resident 9 30000 with motion := x.1, active := some (moveTo 40000), queue := [moveTo 0] }
      decide (reported (.abort 7 9) st = x.2.1) &&
        ((after (.abort 7 9) st).entry? 9).any fun e => decide (e.motion = x.2.2)) = true ∧
    reported (.abort 7 9) (having online { resident 9 30000 with queue := [moveTo 0] }) = [.moveAborted 9 none 1] ∧
    reported (.abort 7 9) (having online (resident 9 30000)) = [] := by decide +kernel

/-- CLEAR of a FAULTED mover seen on zones held for it, on a zone that is not, unseen, and not FAULTED. -/
theorem test_meets_Clear :
    let lost := { resident 9 30000 with motion := .faulted .lost }
    let st := hold (hold (having online lost) 1 9 5) 2 9 5
    st.Tabled ∧ bodyZones 30000 = [9, 10] ∧
    ([(some 30000, (.ok, .empty)), (some 29999, (.ok, .empty)), (some 32001, (.refused, .reason .drift)),
      (none, (.refused, .reason .drift))] : List (Option Position × ResultCode × ReplyData)).all (fun x =>
      decide (answerOf (.clear 7 9) (on (st.modifyEntry 9 fun e => { e with actual := x.1 })) = some x.2)) = true ∧
    answerOf (.clear 7 9) (on (having online (resident 9 30000))) = some (.refused, .reason .badState) ∧
    answerOf (.clear 7 9) (on (having online (handing 9 30000 6 1))) = some (.refused, .reason .inTransit) ∧
    answerOf (.clear 7 9) (on (having online (Entry.blank 9 .stray))) = some (.refused, .reason .stray) :=
  ⟨tabled_of_check (by decide +kernel), by decide +kernel⟩

/-- CLEAR with a claim that was sent, and ABORT of a MOVING mover with a denied zone. -/
theorem test_meets_Clear_claim :
    let lost := { resident 9 30000 with motion := .faulted .lost, claim := some sentClaim }
    let st := hold (hold (having online lost) 1 9 5) 2 9 5
    ((after (.clear 7 9) st).entry? 9).any (fun e => e.claim.isNone && e.cancelDue.any fun d => d.1 = 16) = true ∧
    (let stopped := having online
       { resident 9 30000 with motion := .moving, active := some (moveTo 40000), denied := some (11, .blocked) }
     ((after (.abort 7 9) stopped).entry? 9).any (fun e => e.denied.isNone)) = true := by decide +kernel

/-- HALT with a mover in each motion state and a HANDING one. -/
theorem test_meets_Halt :
    let st : Station := { online with entries :=
      [{ resident 1 30000 with motion := .moving, active := some (moveTo 40000) },
        { resident 2 30000 with motion := .zoneWait, active := some (moveTo 40000) },
        { resident 3 30000 with motion := .dwell, active := some (moveTo 40000) }, resident 4 30000,
        { resident 5 30000 with motion := .stopping }, { resident 6 30000 with motion := .faulted .lost },
        handing 7 48000 6 1] }
    st.Tabled ∧ answerOf (.halt 7) (on st) = some (.ok, .numbers 3 1) ∧
      (after (.halt 7) st).entries.map (fun e => e.motion) =
        [.stopping, .idle, .idle, .idle, .stopping, .faulted .lost, .idle] :=
  ⟨tabled_of_check (by decide +kernel), by decide +kernel⟩

/-- A MOVING mover whose one own-station claim is its outstanding one. -/
theorem test_meets_Halt_claim :
    let e := { resident 1 30000 with motion := .moving, active := some (moveTo 40000), claim := some (.localQueued 12) }
    let st := waits (hold (waits (having online e) 5 1 4) 4 3 5) 4 1 5
    st.Tabled ∧ st.ClaimInPlace e ∧ ((after (.halt 7) st).entry? 1).map (fun x => (x.claim, x.denied)) = some (none, none) ∧
      (after (.halt 7) st).claimedZones 1 = [5] :=
  ⟨tabled_of_check (by decide +kernel), by
    intro p hp _ hs
    have : p.1 = 4 := by revert p; decide +kernel
    exact ⟨.localQueued 12, rfl, by rw [this]; decide +kernel⟩, by decide +kernel⟩

/-! ## Premises of the statements: crossings and the link -/

/-- TRACK from the owner and from another, and a shadow at the age that loses it. -/
theorem test_meets_Track :
    let st := having online { visitor 9 4 with
      shadow := some { setpoint := 23000, velocity := 4, demand := 10, age := 3, valid := true } }
    let f : Frame := .track 9 24000 (-400) 1000
    ready st 4 f = true ∧ ready st 6 f = true ∧ ready online 4 f = true ∧
      ((after .trackFrame (receiving st 4 f)).entry? 9).any (fun e => e.demand = 1000) = true ∧
      (after .trackFrame (receiving st 6 f)).entries = st.entries ∧ reported (.trackLoss 9) st = [.trackLoss 9] := by
  decide +kernel

/-- A shadow that ages, that is lost, that was lost, and none. -/
theorem test_meets_Track_shadow :
    let shadow := fun (p : Position) (age : Nat) (valid : Bool) =>
      ({ setpoint := p, velocity := 4, demand := 10, age, valid } : Shadow)
    ([(some (shadow 23000 2 true), some (shadow 23004 3 true), 10), (some (shadow 23000 3 true), some (shadow 23000 3 false), 0),
      (some (shadow 23000 0 false), some (shadow 23000 0 false), 0), (none, none, 0)] :
        List (Option Shadow × Option Shadow × Int)).all (fun x =>
      (((having online { visitor 9 4 with shadow := x.1 }).visitorWork 9).entry? 9).any fun e =>
        decide (e.shadow = x.2.1 ∧ e.demand = x.2.2)) = true := by decide +kernel

/-- A HANDOVER of mover 9, moving, with its claim of zone 9. -/
def incoming : HandoverContent :=
  { mover := 9, motion := .moving, setpoint := 24000, velocity := 12, dwellRemaining := 0, zoneWaitCount := 0,
    claim := some { zone := 9, phase := .queued, sends := 1, periods := 3 }, receiverRun := (8, 1), senderRun := (7, 1),
    denied := none, active := some (moveTo 40000), queue := [], flushedAtStop := 0 }

/-- The VISITOR of that HANDOVER, holding zone 8 and waiting for zone 9. -/
def visiting : Station := waits (hold (having online { visitor 9 4 with actual := some 24000 }) 0 9 4) 1 9 4

/-- A matching GRANT of zone 16 to a mover that holds zone 7 of the other neighbour joins the list toward its own side. -/
theorem test_meets_Grant_sides :
    let st := having online { resident 9 46000 with claim := some sentClaim, remoteLower := [7] }
    ready st 6 (.grant 9 16) = true ∧ ((after .grantFrame (receiving st 6 (.grant 9 16))).entry? 9).map
      (fun e => (e.remoteLower, e.remoteUpper, e.claim)) = some ([7], [16], none) := by decide +kernel

/-- Every verdict of R71 on a HANDOVER, a take while TRIPPED, and one with the neighbour's tripped mark. -/
theorem test_meets_Handover :
    let f : Frame := .handover incoming
    let taker : Entry := { resident 9 24000 with previousOwner := some 4 }
    visiting.Tabled ∧
    ([({ online with mode := .joining }, some (.refused 9 .state)), (online, some (.refused 9 .unknown)),
      (having online (Entry.blank 9 .stray), some (.refused 9 .unknown)),
      (having online (visitor 9 6), some (.refused 9 .conflict)),
      (having online (resident 9 24000), some (.refused 9 .conflict)), (having online taker, some (.taken 9)),
      (having online { taker with takenDue := some (4, due 9) }, none), (visiting, none)] :
        List (Station × Option Frame)).all (fun x =>
      ready x.1 4 f && decide (reply .handoverFrame x.1 4 f = x.2)) = true ∧
    ([(visiting, .moving), ({ visiting with drive := .tripped .supply }, .faulted .driveTrip),
      ({ visiting with lowerSide := { opened 4 with trippedMark := true } }, .faulted .neighbourTrip)] :
        List (Station × Motion)).all (fun x =>
      ready x.1 4 f && ((after .handoverFrame (receiving x.1 4 f)).entry? 9).any fun e =>
        decide (e.state = .resident ∧ e.motion = x.2 ∧ e.previousOwner = some 4)) = true ∧
    reported .handoverFrame (receiving { visiting with drive := .tripped .supply } 4 f) = [.moverFault 9 .driveTrip 1 none] ∧
    (let t := after .handoverFrame (receiving visiting 4 f)
     (t.zone? 0).map (fun z => z.state) = some (.held 9 5) ∧
       (t.entry? 9).map (fun e => e.remote) = some [7]) :=
  ⟨tabled_of_check (by decide +kernel), by decide +kernel⟩

/-- A delivered claim of a held own zone, of one it waits for behind a HELD zone and behind a FREE one, of the sender's zone
and of none. -/
theorem test_meets_Handover_claim :
    let took := fun (st : Station) (z : ZoneNo) =>
      (after .handoverFrame (receiving st 4 (.handover { incoming with
        claim := some { zone := z, phase := .sent, sends := 2, periods := 3 } }))).entry? 9
    let blocked := hold visiting 1 3 5
    let lower := { opened 4 with span := some (0, 8) }
    ([(visiting, 8, none), (blocked, 9, some (.localQueued 9)), (blocked, 10, none),
      (visiting, 6, some { zone := 6, phase := .queued, sends := 1, periods := 0, place := 0 }), (visiting, 16, none),
      ({ visiting with lowerSide := lower }, 0, some { zone := 0, phase := .queued, sends := 1, periods := 0, place := 0 })] :
        List (Station × ZoneNo × Option Claim)).all (fun x => (took x.1 x.2.1).any fun e => decide (e.claim = x.2.2)) = true ∧
    ((after .handoverFrame (receiving { visiting with drive := .tripped .supply } 4
      (.handover { incoming with motion := .faulted .follow }))).entry? 9).any (fun e => decide (e.motion = .faulted .follow)) = true := by
  decide +kernel

/-- A take removes the mover's other claim, and the local head that R34 left on that FREE zone is examined and granted. -/
theorem test_meets_Handover_cancel :
    let local3 : Entry := { resident 3 30000 with claim := some (.localQueued 9) }
    let st := waits (waits (hold { online with entries := [local3, visitor 9 4] } 0 9 4) 1 3 5) 1 9 4
    let t := after .handoverFrame (receiving st 4 (.handover { incoming with claim := none }))
    (t.zone? 1).map (fun z => (z.state, z.waiting)) = some (.held 3 5, []) ∧
      (t.entry? 3).map (fun e => e.claim) = some none := by decide +kernel

/-- TAKEN that applies to a HANDING and to a FAULTED entry, that matches nothing, and that is overheard. -/
theorem test_meets_Taken :
    let leaving := hold (having online (handing 9 48000 6 1)) 7 9 5
    let lost := having online { resident 9 48000 with motion := .faulted .handoverLost, lostTarget := some 6 }
    leaving.Tabled ∧ lost.Tabled ∧
    ready leaving 6 (.taken 9) = true ∧ ready lost 6 (.taken 9) = true ∧ ready online 6 (.taken 9) = true ∧
    (((after .takenFrame (receiving leaving 6 (.taken 9))).entry? 9).map fun e => (e.state, e.owner)) =
      some (.visitor, some 6) ∧
    ((after .takenFrame (receiving leaving 6 (.taken 9))).zone? 7).map (fun z => z.state) = some (.held 9 6) ∧
    (after .takenFrame (receiving lost 6 (.taken 9))).entries = [] ∧
    reported .overheardTaken { online with
      watchMode := .all, rxQueue := [{ sentBy 4 (.taken 9) with destination := 6 }] } = [.watchOwner 9 4 6] :=
  ⟨tabled_of_check (by decide +kernel), tabled_of_check (by decide +kernel), by decide +kernel⟩

/-- The sends of a TAKEN: what its entry owes toward the other side; and the entry of a mover that waits and holds nothing,
freed with its claim staying in the list (R15). -/
theorem test_meets_Taken_sends :
    let e := { handing 9 48000 6 1 with
      releaseLower := some { zones := [4, 5, 7], due := due 3 }, cancelDue := some (2, due 4)
      releaseUpper := some { zones := [17], due := due 5 } }
    (having online e).takenSends 6 e = [(4, .release 9 4 2), (4, .release 9 7 1), (4, .cancel 9 2)] ∧
    (let st := waits (having online (handing 9 48000 6 1)) 1 9 5
     let t := after .takenFrame (receiving st 6 (.taken 9))
     ready st 6 (.taken 9) = true ∧ t.entries = [] ∧ t.claimedZones 9 = [1]) := by decide +kernel

/-- REFUSED for a HANDING entry, for one FAULTED already, and from a station that is not its target. -/
theorem test_meets_Refused :
    let st := having online (handing 9 48000 6 1)
    let faulted := having online { handing 9 48000 6 1 with motion := .faulted .lost }
    let f : Frame := .refused 9 .conflict
    ready st 6 f = true ∧ ready faulted 6 f = true ∧ ready st 4 f = true ∧
    ([(st, 6, .resident, .faulted .handoverRefused), (faulted, 6, .resident, .faulted .lost), (st, 4, .handing, .idle)] :
        List (Station × Address × EntryState × Motion)).all (fun x =>
      ((after .refusedFrame (receiving x.1 x.2.1 f)).entry? 9).any fun e =>
        decide (e.state = x.2.2.1 ∧ e.motion = x.2.2.2)) = true := by decide +kernel

/-- The wire bits of a frame to a destination. -/
def wire (n destination : Address) (f : Frame) : List Bool := wireBits f.priority n destination f

/-- A line at rest, a bad frame, and frames to this station, to another, and to all, at an empty and a full queue. -/
theorem test_meets_FrameReceived :
    let full : Station := { online with rxQueue := List.replicate 8 (sentBy 4 (.notice .on)) }
    let got := fun bits st => ((after (.frameReceived bits) st).rxQueue.length, (after (.frameReceived bits) st).ackDriven,
      (after (.frameReceived bits) st).linkCounters)
    let none' : LinkCounters := ⟨0, 0, 0, 0, 0, 0, 0⟩
    readLine [] = .nothing ∧ readLine [false, true] = .error ∧
    got [true] online = (0, false, none') ∧ got [false, true] online = (0, false, { none' with receiveErrors := 1 }) ∧
    got (wire 4 5 (.taken 9)) online = (1, true, none') ∧ got (wire 4 5 (.track 9 1 0 0)) online = (1, false, none') ∧
    got (wire 4 63 (.notice .on)) online = (1, false, none') ∧ got (wire 4 6 (.taken 9)) online = (0, false, none') ∧
    got (wire 4 6 (.taken 9)) { online with watchMode := .list, watchList := [9] } = (1, false, none') ∧
    got (wire 4 6 (.taken 8)) { online with watchMode := .list, watchList := [9] } = (0, false, none') ∧
    got (wire 4 5 (.taken 9)) full = (8, false, { none' with turnedAway := 1 }) ∧
    got (wire 4 63 (.notice .on)) full = (8, false, { none' with missedFrames := 1 }) ∧
    got (wire 4 5 (.taken 9)) { online with mode := .unconfigured } = (0, false, none') := by decide +kernel

/-- A destination above 63 matches no filter, whatever is watched. -/
theorem test_meets_FrameReceived_noStation :
    let f := { sentBy 4 (.taken 9) with destination := 64 }
    let watching : Station := { online with watchMode := .all }
    watching.accepts f = false ∧ watching.accepts { f with destination := 6 } = true ∧
    ((after (.frameReceived (wire 4 64 (.taken 9))) watching).rxQueue.length = 0) := by decide +kernel

/-- A head that another row takes, that is malformed, foreign, or stalled, and a PRESENT behind a stalled head. -/
theorem test_meets_Head :
    let claim := receiving { online with sendList := fullSends } 4 (.claim 9 8 true)
    let stalled : Station := { claim with rxQueue := claim.rxQueue ++ [sentBy 9 (.notice .on)], rxStalled := true }
    let bad := { sentBy 4 (.taken 9) with payload := [0] }
    online.running = true ∧ claim.takingRow (sentBy 4 (.claim 9 8 true)) = some .claimFrame ∧
      (after .cancelFrame claim) = { claim with coils := (after .cancelFrame claim).coils } ∧
      parseFrame bad.kind bad.payload = none ∧
      (after .takenFrame { online with rxQueue := [bad] }).linkCounters.receiveErrors = 1 ∧
      online.openNeighbour 9 = false ∧ (after .claimFrame (receiving online 9 (.claim 9 8 true))).linkCounters.foreignFrames
        = 1 ∧
      8 - claim.sendList.length < claim.sendsNeeded 4 (.claim 9 8 true) ∧ (after .claimFrame claim).rxStalled = true ∧
      stalled.sideOfAddress 9 = none ∧ (after .noticeFrame stalled).rxQueue = claim.rxQueue ∧
      (after .claimFrame stalled).rxQueue = stalled.rxQueue := by decide +kernel

/-- The Send List entries that each kind of frame needs, where the table of R109 asks for some and where not. -/
theorem test_meets_Head_needs :
    let order : Frame := .order 5 9 .abort
    let lost := { resident 9 48000 with
      motion := .faulted .handoverLost, lostTarget := some 6, releaseLower := some { zones := [5, 7], due := due 3 } }
    let taken := { resident 9 24000 with previousOwner := some 4 }
    ([(online, 4, .claim 9 8 true, 1), (claiming, 6, .grant 9 16, 0), (online, 6, .grant 9 16, 1),
      (having online (visitor 9 6), 6, .grant 9 16, 0), (having online (visitor 9 4), 6, .grant 9 16, 1),
      (having online (handing 9 46000 4 1), 6, .grant 9 16, 1), (visiting, 4, .handover incoming, 0),
      (online, 4, .handover incoming, 1), (having online taken, 4, .handover incoming, 1),
      (having online { taken with takenDue := some (4, due 9) }, 4, .handover incoming, 0),
      (having online lost, 6, .taken 9, 2), (online, 6, .taken 9, 0), (having online (resident 9 30000), 20, order, 1),
      (having online (handing 9 48000 6 1), 20, order, 1), (having online (visitor 9 4), 20, order, 0),
      (online, 6, .cancel 9 8, 0)] : List (Station × Address × Frame × Nat)).all (fun x =>
      decide (x.1.sendsNeeded x.2.1 x.2.2.1 = x.2.2.2)) = true := by decide +kernel

/-- A head that its row takes. -/
theorem test_meets_Head_handOn :
    let st := receiving (having online (visitor 9 4)) 4 (.taken 9)
    after .takenFrame st =
      { ({ st with rxQueue := [] } : Station).handOn 4 (.taken 9) with coils := (after .takenFrame st).coils } := by decide +kernel

/-- A station that owes a NOTICE and a CLAIM, and another with a CLAIM passed over eight times. -/
def owing : Station := { claiming.modifyEntry 9 (fun e => { e with claimDue := some (due 3) }) with noticeDue := some (due 8) }

theorem test_meets_TransmitStart :
    let passed := owing.modifyEntry 9 fun e => { e with claimDue := some { due 3 with pass := 8 } }
    let ref := fun (rivals : List Byte) (st : Station) => (after (.transmitStart rivals) st).attempt.map fun a => a.ref
    owing.running = true ∧ owing.attempt = none ∧ (owing.allSends.filter owing.eligible).length = 2 ∧
      online.allSends = [] ∧ ref [] online = none ∧ ref [] owing = some .notice ∧ ref [] passed = some (.claim 9) ∧
      ref [5, 255] owing = some .notice ∧ ref [4] owing = none ∧ (owing.frameOf .notice 8).isSome = true ∧
      ((after (.transmitStart []) owing).entry? 9).bind (fun e => e.claimDue.map fun d => d.pass) = some 1 := by
  decide +kernel

/-- What a CLAIM, a RELEASE and a HANDOVER carry: the entry flag with and without a zone of that segment held, the lowest
run and no more than 16 zones, the runs on both sides of the boundary. -/
theorem test_meets_TransmitStart_content :
    let flag := fun (remote : List ZoneNo) => match
      (owing.modifyEntry 9 fun e => { e with remoteLower := remote.filter (· < 8), remoteUpper := remote.filter (8 ≤ ·) }).frameOf (.claim 9) 3 with
      | some (.claim _ _ f) => some f
      | _ => none
    let run := fun (zones : List ZoneNo) => match
      (owing.modifyEntry 9 fun e => { e with releaseUpper := some { zones := zones, due := due 4 } }).frameOf
        (.release 9 .upper) 4 with
      | some (.release _ f n) => some (f, n)
      | _ => none
    let leaving := hold (having online { handing 9 48000 6 1 with remoteUpper := [16, 17] }) 7 9 5
    flag [] = some true ∧ flag [7] = some true ∧ flag [16] = some false ∧ run [16, 17, 19] = some (16, 2) ∧
      run ((List.range 17).map (16 + ·)) = some (16, 16) ∧
      (match leaving.frameOf (.handover 9) 5 with
        | some (.handover c) => some (c.receiverRun, c.senderRun)
        | _ => none) = some ((16, 2), (15, 1)) := by decide +kernel

/-- The station with an attempt of a send under way. -/
def sending (st : Station) (ref : SendRef) (place tries destination : Nat) (f : Frame) : Station :=
  { st with attempt := some { ref, place, tries, priority := f.priority, destination, content := f, raisedAgain := false } }

/-- Attempts that end: a broadcast, a delivered CLAIM, a retry with the last one left, a mark no longer standing, one
raised again, and an ORDER that this station answers itself. -/
theorem test_meets_AttemptEnd :
    let notice := sending owing .notice 8 0 63 (.notice .on)
    let claim := sending owing (.claim 9) 3 2 6 (.claim 9 16 false)
    let again : Station := { claim with attempt := claim.attempt.map fun a => { a with raisedAgain := true } }
    let ordered := sending { having online (resident 9 30000) with
      orders := [{ tag := 0, mover := 9, kind := .abort, due := some (due 3), waiting := 0, retrySeen := none }] }
      (.order 0) 3 0 63 (.order 0 9 .abort)
    let tries := fun c st => ((after c st).entry? 9).bind fun e => e.claimDue.map fun d => d.tries
    notice.markStands 8 = true ∧ claim.markStands 3 = true ∧ { claim with entries := [] }.markStands 3 = false ∧
      (after (.attemptEnd .recessive) notice).noticeDue = none ∧
      tries (.attemptEnd .recessive) claim = some 3 ∧ tries (.attemptEnd .dominant) claim = none ∧
      tries (.attemptEnd .dominant) again = some 0 ∧
      ((after (.attemptEnd .dominant) claim).entry? 9).bind (fun e => e.claim.map fun c => (c.phase, c.sends)) =
        some (.sent, 2) ∧
      (after (.attemptEnd .disturbed) claim).linkCounters.disturbedAttempts = 1 ∧
      reported (.attemptEnd .recessive) ordered = [.orderResult 9 (some 5) 0 .accepted] := by decide +kernel

/-- The origin applies its own ABORT, CLEAR and MOVE: what the command does here, then ORDER_RESULT. -/
theorem test_meets_AttemptEnd_origin :
    let ordered := fun (e : Entry) (kind : OrderKind) =>
      sending { having online e with
        orders := [{ tag := 0, mover := 9, kind, due := some (due 3), waiting := 0, retrySeen := none }] }
        (.order 0) 3 0 63 (.order 0 9 kind)
    let dwelling := { resident 9 30000 with motion := .dwell, active := some (moveTo 30000), dwellRemaining := 5 }
    let faulted := { resident 9 30000 with motion := .faulted .follow }
    let held := hold (hold (ordered faulted .clear) 1 9 5) 2 9 5
    let ended := after (.attemptEnd .recessive)
    (ordered dwelling .abort).orderRefusal dwelling .abort = none ∧ held.orderRefusal faulted .clear = none ∧
      (ordered dwelling .abort).mode = .online ∧
      reported (.attemptEnd .recessive) (ordered dwelling .abort) =
        [.moveAborted 9 (some 7) 0, .orderResult 9 (some 5) 0 .accepted] ∧
      ((ended (ordered dwelling .abort)).entry? 9).map Entry.motion = some .idle ∧
      ((ended held).entry? 9).map Entry.motion = some .idle ∧ (ended held).orders = [] ∧
      ((ended (ordered faulted (.move (moveTo 0)))).entry? 9).map Entry.queue = some [] ∧
      ((ended (ordered dwelling (.move (moveTo 0)))).entry? 9).map Entry.queue = some [moveTo 0] := by decide +kernel

/-- Delivery failures of a CLAIM, a directed PRESENT, an ORDER_REPLY to a station no longer known, a TAKEN, a HANDOVER. -/
theorem test_meets_DeliveryFailure :
    let claim := sending owing (.claim 9) 3 3 6 (.claim 9 16 false)
    let present := sending { online with lowerSide := { opened 4 with presentDue := some (true, due 3) } }
      (.present .lower) 3 3 4 (online.directedPresent .lower true)
    let reply : Frame := .orderReply 0 9 .accepted
    let dropped := sending { online with sendList := [⟨20, reply, due 3⟩] } .loose 3 3 20 reply
    let taken := sending { online with sendList := [⟨4, .taken 9, due 3⟩] } .loose 3 3 4 (.taken 9)
    let handover := sending (having online { handing 9 48000 6 2 with
      handover := some { target := 6, travelled := none, phase := .ready (due 3), attempts := 2, waiting := 0 } })
      (.handover 9) 3 3 6 (.handover { incoming with claim := none })
    [claim, present, dropped, taken, handover].all (fun st => st.running && st.markStands 3) = true ∧
      reported (.attemptEnd .recessive) claim = [.sideClosed 6 .lost] ∧
      ((after (.attemptEnd .recessive) claim).entry? 9).any (fun e => e.denied = some (16, .closed)) = true ∧
      (after (.attemptEnd .recessive) present).lowerSide.presentDue = none ∧
      (after (.attemptEnd .recessive) dropped).linkCounters.droppedReplies = 1 ∧
      (after (.attemptEnd .recessive) taken).sendList = [⟨4, .taken 9, due 3⟩] ∧
      reported (.attemptEnd .recessive) handover = [.sideClosed 6 .lost, .moverFault 9 .handoverLost 0 none] := by
  decide +kernel

/-- A Send List entry frees while the head is stalled: the head is tested again and taken. -/
theorem test_meets_DeliveryFailure_freeing :
    let reply : Frame := .orderReply 0 9 .accepted
    let st : Station := { receiving online 4 (.claim 9 16 true) with
      rxStalled := true, sendList := ⟨20, reply, due 100⟩ :: fullSends.drop 1 }
    let ended := fun tries slot => (after (.attemptEnd slot) (sending st .loose 100 tries 20 reply)).rxStalled
    (ended 0 .dominant, ended 3 .recessive, ended 0 .recessive) = (false, false, true) := by decide +kernel

/-! ## Premises of the statements: start, neighbours, orders, scans -/

/-- A store page: these bytes first, then FFh, with a check at 62 and 63. -/
def page (first : List Byte) (hi lo : Byte) : Memory :=
  Memory.build (fun x => if x = 62 then hi else if x = 63 then lo else (first[x]?).getD 0xFF) 0 64

/-- The bytes of a record with these fields for address, lower, upper, coils and the high byte of TOP. -/
def recordBytes (address lower upper coils top : Nat) : List Byte :=
  [address, lower, upper, 0, 0x5D, 0xC0, coils, 2, 1, 0, 200, 0, 100, 64, 8, top, 0x58, 4, 5].map (BitVec.ofNat 8)

/-- LOADING with that page 0. -/
def loadingWith (page0 page1 : Memory) : State :=
  { State.reset with store := { Store.erased with page0, page1 } }

/-- A pin reset with an operation in flight and without, and RESTART with the store busy and not. -/
theorem test_meets_PinResetAndRestart :
    let busy : State := { on online with store := { Store.erased with busy := some (.commit, 1), mark1 := true } }
    (match exec .pinReset busy with
      | .next t => t.store.mark1 && t.store.busy.isNone && t.station.mode = .loading
      | _ => false) = true ∧
    busy.station.mode ≠ .loading ∧ answerOf (.restart 7) busy = some (.busy, .empty) ∧
    answerOf (.restart 7) (on online) = some (.ok, .empty) ∧ (after (.restart 7) online).mode = .loading := by
  decide +kernel

/-- The station state after LOADING with those pages. -/
def loadedMode (page0 page1 : Memory) : Option Mode :=
  match exec .loadingEnd (loadingWith page0 page1) with
  | .next t => some t.station.mode
  | _ => none

theorem test_meets_LoadingEnd :
    State.reset.station.mode = .loading ∧ (on online).station.mode ≠ .loading ∧ loadedMode [] [] = some .unconfigured := by
  decide +kernel

/-- Records at the ends of their ranges, which LOADING applies. -/
theorem test_meets_LoadingEnd_valid :
    loadedMode (page (recordBytes 5 4 6 8 2) 0xE7 0x4B) [] = some .joining ∧
    loadedMode (page (recordBytes 62 63 63 16 2) 0xC4 0x89) [] = some .joining ∧
    loadedMode (page (recordBytes 0 63 62 16 3) 0x13 0x06) [] = some .joining ∧
    loadedMode (page (recordBytes 0 63 62 16 3) 0x13 0x07) [] = some .unconfigured := by
  refine ⟨?_, ?_, ?_, ?_⟩ <;> decide +kernel

/-- The record of a valid page, field by field. -/
theorem test_meets_LoadingEnd_record :
    ({ Store.erased with page0 := page (recordBytes 5 4 6 8 2) 0xE7 0x4B } : Store).record? =
      some { conf with periodCode := 2, rateCode := 1, pwmTop := 600, idle := ⟨false, true, false, true⟩ } := by decide +kernel

/-- Records with one field just outside its range, or neighbours that clash, which LOADING finds invalid. -/
theorem test_meets_LoadingEnd_invalid :
    [(63, 4, 6, 8, 2), (5, 5, 6, 8, 2), (5, 4, 5, 8, 2), (5, 4, 4, 8, 2), (5, 4, 6, 7, 2), (5, 4, 6, 17, 2), (5, 4, 6, 8, 1),
      (5, 4, 6, 8, 16), (5, 64, 6, 8, 2)].all (fun x =>
      (recordOfPage (page (recordBytes x.1 x.2.1 x.2.2.1 x.2.2.2.1 x.2.2.2.2) 0 0).read).isNone) = true := by
  decide +kernel

/-- The block map of page 1: its flags are bits that are 0. -/
theorem test_meets_LoadingEnd_blocks :
    ({ Store.erased with page1 := page [0x7E] 0x4A 0xAD } : Store).blocksValid = true ∧
    ({ Store.erased with page1 := page [0x7E] 0x4A 0xAD } : Store).zoneTable 8 =
      (List.range 8).map fun k => if k = 0 ∨ k = 7 then { Zone.fresh with state := .blocked } else Zone.fresh := by
  refine ⟨?_, ?_⟩ <;> decide +kernel

/-- A join count at 99 with one side UNHEARD, both sides EDGE, and a probe count at 199 with and without a PRESENT due. -/
theorem test_meets_JoinAndProbe :
    let edge := SideRecord.ofNeighbour none
    let joining : Station := { online with mode := .joining, joinCount := 99, lowerSide := SideRecord.ofNeighbour (some 4) }
    let probing : Station := { online with lowerSide := { opened 4 with state := .closed .lost, probeCount := 199 } }
    let owed : Station := { probing with lowerSide := { probing.lowerSide with presentDue := some (false, due 3) } }
    reported .joinCountExpiry joining = [.sideClosed 4 .lost, .joined] ∧
      ({ online with mode := .joining, lowerSide := edge, upperSide := edge } : Station).joinTick.mode = .online ∧
      probing.running = true ∧ (after (.probeCountExpiry .lower) probing).lowerSide.presentDue = some (true, due 20) ∧
      owed.attempt = none ∧ (after (.probeCountExpiry .lower) owed).lowerSide.presentDue = some (true, due 3) := by
  decide +kernel

/-- The countings of an expiry just below their ends and where they do not count. -/
theorem test_meets_JoinAndProbe_below :
    let lower := fun (state : SideState) (n : Nat) => ({ opened 4 with state := state, probeCount := n } : SideRecord)
    ({ online with mode := .joining, joinCount := 98 } : Station).joinTick.joinCount = 99 ∧
      online.joinTick = online ∧ online.probeTick .lower = online ∧
      ({ online with lowerSide := lower (.closed .lost) 198 } : Station).probeTick .lower =
        { online with lowerSide := lower (.closed .lost) 199 } ∧
      ({ online with lowerSide := lower (.closed .mismatch) 7 } : Station).probeTick .lower =
        { online with lowerSide := lower (.closed .mismatch) 7 } := by decide +kernel

/-- NOTICE of each drive state, from a neighbour and a stranger, with the tripped mark set and clear; the mover at the
boundary is struck, the one beyond it is not. -/
theorem test_meets_Notice :
    let tripped : DriveState := .tripped .supply
    let marked : Station := { online with lowerSide := { opened 4 with trippedMark := true } }
    let st : Station := { online with entries := [resident 1 25999, resident 2 26000] }
    let onUpper : Station := { online with entries := [resident 1 46000, resident 2 46001] }
    let reports := fun (x : Station) n d => reported .noticeFrame (receiving x n (.notice d))
    [(st, 4, tripped), (st, 6, tripped), (marked, 4, tripped), (marked, 4, .on), (online, 4, .off)].all (fun x =>
      ready x.1 x.2.1 (.notice x.2.2)) = true ∧ st.Tabled ∧
    reports st 4 tripped = [.neighbourTrip 4 .supply, .moverFault 1 .neighbourTrip 0 none] ∧
    reports onUpper 6 tripped = [.neighbourTrip 6 .supply, .moverFault 2 .neighbourTrip 0 none] ∧
    reports marked 4 tripped = [] ∧ reports marked 4 .on = [.neighbourResume 4] ∧ reports online 4 .off = [] ∧
    reports online 9 tripped = [] :=
  ⟨by decide +kernel, tabled_of_check (by decide +kernel), by decide +kernel⟩

/-- PRESENT that fits and does not, on either side, fresh after one was heard, with an answer wanted, and from a
stranger. -/
theorem test_meets_Present :
    let p : Present := { origin := 0, coils := 8, lower := none, upper := some 5, fresh := false, answerWanted := false,
                         drive := .on }
    let above : Present := { p with origin := 48000, lower := some 5, upper := none }
    let joining : Station := { online with mode := .joining, lowerSide := SideRecord.ofNeighbour (some 4) }
    let old : Station := { having online (visitor 9 4) with sendList := [⟨4, .taken 9, due 3⟩] }
    let reports := fun (x : Station) n q => reported .presentFrame (receiving x n (.present q))
    [(joining, 4, p), (online, 6, above), (old, 4, { p with fresh := true }), (online, 9, p)].all (fun x =>
      ready x.1 x.2.1 (.present x.2.2)) = true ∧ online.own ≠ 4 ∧ old.Tabled ∧
    reports joining 4 p = [.sideOpen 4, .joined] ∧ reports online 6 above = [] ∧
    reports online 4 { p with coils := 9 } = [.sideClosed 4 .mismatch] ∧
    reports online 6 { above with lower := none } = [.sideClosed 6 .mismatch] ∧
    reports old 4 { p with fresh := true } = [.neighbourRestart 4] ∧
    (after .presentFrame (receiving old 4 (.present { p with fresh := true }))).entries = [] ∧
    (after .presentFrame (receiving old 4 (.present { p with fresh := true }))).sendList = [] ∧
    (after .presentFrame (receiving online 4 (.present { p with answerWanted := true }))).lowerSide.presentDue =
      some (false, due 20) ∧ reports online 9 p = [] :=
  ⟨by decide +kernel, by decide +kernel, tabled_of_check (by decide +kernel), by decide +kernel⟩

/-- PRESENT fresh of station 4 ends the last claim of a VISITOR of station 6. -/
theorem test_meets_Present_purge :
    let st := waits (having online (visitor 9 6)) 0 9 4
    let p : Present := { origin := 0, coils := 8, lower := none, upper := some 5, fresh := true, answerWanted := false,
                         drive := .on }
    (after .presentFrame (receiving st 4 (.present p))).entries = [] ∧
      (after .presentFrame (receiving st 4 (.present p))).zones = online.zones := by decide +kernel

/-- The purge examines the FREE list whose head it takes; a local head that R34 left on a FREE zone waits on (log entry 55). -/
theorem test_meets_Present_lists :
    let waiter := fun (m : MoverId) (g : ZoneNo) => { resident m 30000 with claim := some (.localQueued g) }
    let st := waits (waits (waits { online with entries := [waiter 1 8, waiter 2 9] } 0 9 4) 0 1 5) 1 2 5
    let p : Present := { origin := 0, coils := 8, lower := none, upper := some 5, fresh := true, answerWanted := false,
                         drive := .on }
    let t := after .presentFrame (receiving st 4 (.present p))
    (t.zone? 0).map (fun z => (z.state, z.waiting.length)) = some (.held 1 5, 0) ∧
      (t.zone? 1).map (fun z => (z.state, z.waiting.length)) = some (.free, 1) := by decide +kernel

/-- MAINTENANCE with the store busy, a mover active, the drive ON, and taken: a HELD zone freed, a claim denied. -/
theorem test_meets_Maintenance :
    let st : Station := waits (hold { having online (Entry.blank 9 .stray) with drive := .off } 0 8 4) 1 7 4
    answerOf (.maintenance 7) { on st with store := { Store.erased with busy := some (.erase, 0) } } =
        some (.busy, .empty) ∧
      answerOf (.maintenance 7) (on { st with entries := [resident 1 30000] }) =
        some (.refused, .reason .moversActive) ∧
      answerOf (.maintenance 7) (on { st with drive := .on }) = some (.refused, .reason .driveOn) ∧
      answerOf (.maintenance 7) (on st) = some (.ok, .number 1) ∧
      (after (.maintenance 7) st).zones = List.replicate 8 Zone.fresh ∧
      (after (.maintenance 7) st).sendList.map (fun l => l.content) = [.denied 7 9 .state] := by decide +kernel

/-- A pending order of a tag. -/
def order (tag waiting : Nat) (retry : Option Address) : PendingOrder :=
  { tag, mover := 9, kind := .clear, due := none, waiting, retrySeen := retry }

/-- Orders formed with tags in use around the wrap, a full table, and timeouts with and without RETRY seen. -/
theorem test_meets_Orders :
    let three : Station := { online with orders := [order 255 0 none, order 0 0 none, order 1 0 none], nextTag := 255 }
    let full : Station := { three with orders := three.orders ++ [order 2 0 none] }
    answerOf (.clear 7 9) (on three) = some (.accepted, .number 2) ∧ (after (.clear 7 9) three).nextTag = 3 ∧
      answerOf (.abort 7 9) (on (having three (visitor 9 4))) = some (.accepted, .number 2) ∧
      answerOf (.move 7 9 ⟨0, 0, 1, 4, 0, 2⟩) (on full) = some (.busy, .empty) ∧
      reported (.orderTimeout 3) { online with orders := [order 3 19 none] } = [.orderResult 9 none 3 .notFound] ∧
      reported (.orderTimeout 3) { online with orders := [order 3 19 (some 6)] } =
        [.orderResult 9 (some 6) 3 .inTransit] ∧
      reported (.orderTimeout 3) { online with orders := [order 3 18 none] } = [] := by decide +kernel

/-- The order timers of an expiry: not counted with ORDER due, one more period, and the end. -/
theorem test_meets_Orders_tick :
    let waiting : PendingOrder := { order 1 7 none with due := some (due 3) }
    let t := ({ online with orders := [waiting, order 2 18 none, order 3 19 (some 6), order 4 19 none] } : Station).orderTick
    t.orders = [waiting, order 2 19 none] ∧
      t.outbox = [.orderResult 9 (some 6) 3 .inTransit, .orderResult 9 none 4 .notFound] := by decide +kernel

/-- ORDER for a mover in each entry state and with each refusal, and ORDER_REPLY for an order pending or not. -/
theorem test_meets_OrderApplied :
    let abort : Frame := .order 5 9 .abort
    let clear : Frame := .order 5 9 .clear
    let move : Frame := .order 5 9 (.move (moveTo 40000))
    let answer := fun (e : Entry) f => reply .orderFrame (having online e) 20 f
    [resident 9 30000, handing 9 48000 6 1, visitor 9 4, Entry.blank 9 .stray].all (fun e =>
      ready (having online e) 20 abort && ready (having online e) 20 clear && ready (having online e) 20 move) = true ∧
    answer (resident 9 30000) move = some (.orderReply 5 9 .accepted) ∧
    answer { resident 9 30000 with queue := List.replicate 8 (moveTo 0) } move = some (.orderReply 5 9 .queueFull) ∧
    answer { resident 9 30000 with motion := .faulted .lost } abort = some (.orderReply 5 9 .faulted) ∧
    answer { resident 9 30000 with motion := .stopping } abort = some (.orderReply 5 9 .stopping) ∧
    answer (resident 9 30000) clear = some (.orderReply 5 9 .badState) ∧
    answer { resident 9 30000 with motion := .faulted .lost } clear = some (.orderReply 5 9 .drift) ∧
    answer (handing 9 48000 6 1) abort = some (.orderReply 5 9 .retry) ∧ answer (visitor 9 4) abort = none ∧
    ([(OrderResult.accepted, [ReportBody.orderResult 9 (some 20) 3 .accepted], 0), (.retry, [], 1)] :
        List (OrderResult × List ReportBody × Nat)).all (fun x =>
      let st := receiving { online with orders := [order 3 0 none] } 20 (.orderReply 3 9 x.1)
      decide (reported .orderReplyFrame st = x.2.1 ∧ (after .orderReplyFrame st).orders.length = x.2.2)) = true ∧
    reported .orderReplyFrame (receiving online 20 (.orderReply 3 9 .accepted)) = [] := by decide +kernel

theorem test_meets_WatchSet :
    online.mode.started = true ∧ answerOf (.watchSet 7 2 (List.replicate 16 4095)) (on online) = some (.ok, .number 1) ∧
      (after (.watchSet 7 1 [3, 1, 3]) online).watchList = [3, 1] := by decide +kernel

/-- The sampled bits of a scan: its bytes and their check. -/
def scanBits (bs : List Byte) : List Bool := (bs ++ [crc8 bs]).flatMap byteBits

/-- A scan that is bad, repeated, expected, and later than expected; sightings of each kind; loss counts below 3; a strobe
that rose before a reset, and one in MAINTENANCE. -/
theorem test_meets_Scan :
    let st : Station := { having online { resident 1 30000 with lossCount := 2 } with expectedScan := some 9 }
    let scan := fun bits => Instr.scan ⟨bits, false⟩
    let counts := fun bits => (after (scan bits) st).sightingCounters
    let expected := fun bits => (after (scan bits) st).expectedScan
    let seen : List Byte := [9, 1, 0, 1, 0x17, 0x70]
    st.Tabled ∧ scanOfBytes (gatherBytes [true]) = none ∧ (counts [true]).scanErrors = 1 ∧ expected [true] = some 10 ∧
      (counts (scanBits [8, 0])).scanErrors = 1 ∧ expected (scanBits [8, 0]) = some 9 ∧
      expected (scanBits seen) = some 10 ∧
      ((after (scan (scanBits seen)) st).entry? 1).any (fun e => e.lossCount = 0 && e.actual = some 30000) = true ∧
      (counts (scanBits [10, 0])).missedScans = 1 ∧ reported (scan (scanBits [10, 0])) st = [.moverFault 1 .lost 0 none] ∧
      reported (scan (scanBits [9, 1, 0x0F, 0xFF, 0x5D, 0xBF])) st = [.straySeen 4095 15] ∧
      (counts (scanBits [9, 1, 0, 2, 0x5D, 0xC0])).droppedSightings = 1 ∧
      (after (.scan ⟨scanBits seen, true⟩) st).expectedScan = some 9 ∧
      (after (scan (scanBits seen)) { st with mode := .maintenance }).expectedScan = some 9 :=
  ⟨tabled_of_check (by decide +kernel), by decide +kernel⟩

/-- Bytes that are a scan, at 0 and 8 sightings, and bytes that are none: 9 sightings, a byte too many, a wrong check, one
byte. -/
theorem test_meets_Scan_bytes :
    let checked := fun bs : List Byte => scanOfBytes (bs ++ [crc8 bs])
    let full : List Byte := 255 :: 8 :: (List.replicate 8 [15, 255, 93, 191]).flatten
    checked [9, 0] = some ⟨9, []⟩ ∧ checked full = some ⟨255, List.replicate 8 (4095, 23999)⟩ ∧
    checked (0 :: 9 :: List.replicate 36 0) = none ∧ checked [9, 0, 0] = none ∧ scanOfBytes [9, 0, 1] = none ∧
    scanOfBytes [9] = none := by decide +kernel

/-! ## Premises of the statements: ADOPT, drive and coils, store -/

/-- ADOPT of a STRAY inside, at both ends of the segment beside open and EDGE sides, on a zone in use, and of others. -/
theorem test_meets_Adopt :
    let stray := fun p => having online { Entry.blank 9 .stray with actual := some p }
    let edge : Station := { stray 24000 with lowerSide := SideRecord.ofNeighbour none }
    online.zones.length = online.conf.coils ∧
      answerOf (.adopt 7 9) (on online) = some (.notFound, .empty) ∧
      answerOf (.adopt 7 9) (on (having online (resident 9 30000))) = some (.refused, .reason .notStray) ∧
      answerOf (.adopt 7 9) (on (stray 24000)) = some (.ok, .number 1) ∧
      answerOf (.adopt 7 9) (on edge) = some (.refused, .reason .outOfSegment) ∧
      answerOf (.adopt 7 9) (on (stray 23999)) = some (.refused, .reason .outOfSegment) ∧
      answerOf (.adopt 7 9) (on (stray 47999)) = some (.ok, .number 1) ∧
      answerOf (.adopt 7 9) (on (stray 48000)) = some (.refused, .reason .outOfSegment) ∧
      answerOf (.adopt 7 9) (on (waits (stray 28500) 1 1 4)) = some (.refused, .reason .zoneBusy) ∧
      (after (.adopt 7 9) (stray 28500)).holdings 9 = [0, 1, 2] := by decide +kernel

/-- DRIVE ON and OFF from each drive state, with an input active and with a mover active. -/
theorem test_meets_DriveOnAndOff :
    let off : Station := { online with drive := .off }
    let tripped : Station := { online with drive := .tripped .supply, latch := some .supply, noticeDue := some (due 3) }
    let claimed := waits (hold online 0 1 5) 0 2 4
    answerOf (.driveOn 7) (on { off with overCurrent := 0x80 }) = some (.refused, .tripActive (.coil 7)) ∧
      answerOf (.driveOn 7) (on { off with overCurrent := 0x100 }) = some (.ok, .empty) ∧
      answerOf (.driveOn 7) (on { off with supplyLow := true }) = some (.refused, .tripActive .supply) ∧
      (after (.driveOn 7) off).noticeDue = some (due 20) ∧ (after (.driveOn 7) online).noticeDue = none ∧
      answerOf (.driveOff 7) (on (having online (visitor 9 4))) = some (.refused, .reason .moversActive) ∧
      (after (.driveOff 7) tripped).drive = .off ∧ (after (.driveOff 7) tripped).noticeDue = some (due 3) ∧
      claimed.Tabled ∧ (after (.driveOff 7) claimed).sendList.map (fun l => l.content) = [.denied 2 8 .drive] :=
  ⟨by decide +kernel, by decide +kernel, by decide +kernel, by decide +kernel, by decide +kernel, by decide +kernel,
    by decide +kernel, by decide +kernel, tabled_of_check (by decide +kernel), by decide +kernel⟩

/-- At a trip a RESIDENT with no active move and a HANDING mover keep what they hold off their body. -/
theorem test_meets_TripInput_holdings :
    let tripped := after (.tripInputActive .supply)
    reaching.Tabled ∧
      (let t := tripped (reachingWith fun e => { e with active := none })
       t.holdings 9 = [1, 2, 3] ∧ (t.entry? 9).map Entry.remote = some [16]) ∧
      (let t := tripped (hold (hold (having online { handing 9 48000 6 1 with remoteUpper := [16, 17] }) 6 9 5) 7 9 5)
       t.holdings 9 = [6, 7] ∧ (t.entry? 9).map Entry.remote = some [16, 17]) :=
  ⟨tabled_of_check (by decide +kernel), by decide +kernel⟩

/-- By R61 and R57 a RESIDENT with an active move releases at a trip what it holds off its body. -/
theorem test_trip_releases (h : Config.tripKeepsHoldings = false) : retracted (reaching.tripFault 9) = true := by
  rw [Station.tripFault_releases h]
  decide +kernel

/-- By R158 it keeps every zone and gives its claim up; all else of its fault is the same. -/
theorem test_trip_keeps (h : Config.tripKeepsHoldings = true) :
    let t := reaching.tripFault 9
    t.holdings 9 = [1, 2, 3] ∧ t.claimedZones 9 = [] ∧ (t.entry? 9).map Entry.remote = some [16] ∧
      (t.entry? 9).map Entry.motion = some (.faulted .driveTrip) ∧ t.outbox = [.moverFault 9 .driveTrip 1 none] := by
  obtain ⟨e, he⟩ : ∃ e, reaching.entry? 9 = some e := Option.isSome_iff_exists.mp (by decide +kernel)
  have hs : e = (reaching.entry? 9).get (by decide +kernel) := by simp [he]
  rw [Station.tripFault_keeps h he (by rw [hs]; decide +kernel) (by rw [hs]; decide +kernel) (by rw [hs]; decide +kernel)
    (by rw [hs]; decide +kernel), hs]
  decide +kernel

/-- Trip inputs: read and not read, active already, from each drive state. -/
theorem test_meets_TripInput :
    let st : Station := { online with entries := [resident 1 30000, visitor 2 4, handing 3 48000 6 1] }
    let off : Station := { online with drive := .off }
    st.Tabled ∧ (7 < st.conf.coils ∧ ¬8 < st.conf.coils) ∧
      reported (.tripInputActive (.coil 7)) st =
        [.driveTrip (.coil 7), .moverFault 1 .driveTrip 0 none, .moverFault 3 .driveTrip 0 none] ∧
      reported (.tripInputActive (.coil 8)) st = [] ∧ reported (.tripInputActive .supply) { st with supplyLow := true } = [] ∧
      (after (.tripInputActive .supply) off).latch = some .supply ∧
      (after (.tripInputActive (.coil 0)) { off with latch := some .supply }).latch = some .supply ∧
      (after (.tripInputActive (.coil 0)) (Station.atReset 0 false)).overCurrent = 1 ∧
      (after (.tripInputInactive (.coil 15)) { off with overCurrent := 0xFFFF }).overCurrent = 0x7FFF :=
  ⟨tabled_of_check (by decide +kernel), by decide +kernel⟩

/-- A local claim behind a remote head of a FREE zone, when the drive leaves ON: the one stays, the other is denied. -/
theorem test_meets_DriveEnds_claims :
    let e := { resident 1 30000 with claim := some (Claim.localQueued 8) }
    let st := waits (waits (having online e) 0 2 4) 0 1 5
    let full : Station := { st with sendList := fullSends }
    (after (.driveOff 7) st).zones = (waits online 0 1 5).zones ∧ (after (.driveOff 7) st).entries = [e] ∧
      (after (.driveOff 7) st).sendList.map (fun l => l.content) = [.denied 2 8 .drive] ∧
      (after (.driveOff 7) full).sendList = fullSends ∧
    (after (.tripInputActive .supply) st).sendList.map (fun l => l.content) = [.denied 2 8 .drive] ∧
    (after (.tripInputActive .supply) st).zones = online.zones := by decide +kernel

/-- A coil with a drive of compare 1 at a small TOP, and one whose low switch waits for its deadtime. -/
theorem test_meets_CoilClock :
    let small : Station := { online with
      record := some { conf with pwmTop := 3 }
      coils := [{ Coil.atReset with preloaded := .drive .plus 1, applied := .drive .plus 1 }] }
    let quarter := fun n => (Nat.repeat Station.coilClock n small).pwm.count
    small.pwm.running = true ∧ 1 ≤ small.conf.pwmTop ∧ (List.range 7).map quarter = [0, 1, 2, 3, 2, 1, 0] ∧
      (after .pwmTurn small).pwm.count = 0 ∧ (after (.pwmCompareReached 0) small).pwm.count = 1 ∧
      (List.range 5).map (fun n => (Nat.repeat Station.coilClock n small).switchState 0 .bl) =
        [(true, false), (true, false), (true, false), (true, false), (true, true)] ∧
      ((after (.deadtimeElapsed 0 .bl) small).switchState 0 .bl).2 = true ∧
      (Station.atReset 0 false).coilClock = Station.atReset 0 false := by decide +kernel

/-- The requests of R155: without a record, with the drive not ON, for each applied drive on both sides of its compare, and
for a coil from C on; and the clocks off that a clock leaves. -/
theorem test_meets_CoilClock_request :
    let coil := fun (a : CoilDrive) => ({ Coil.atReset with applied := a } : Coil)
    let at3 : Station := { online with pwm := { running := true, count := 3, up := true } }
    (Station.atReset 0 false).request 0 Coil.atReset = ⟨false, false, false, false⟩ ∧
      { online with drive := .off }.request 15 Coil.atReset = ⟨false, true, false, true⟩ ∧
      at3.request 0 (coil .unassigned) = ⟨false, false, false, false⟩ ∧
      at3.request 0 (coil (.drive .plus 4)) = ⟨true, false, false, true⟩ ∧
      at3.request 0 (coil (.drive .plus 3)) = ⟨false, true, false, true⟩ ∧
      at3.request 0 (coil (.drive .minus 4)) = ⟨false, true, true, false⟩ ∧
      at3.request 0 (coil (.drive .zero 0)) = ⟨false, true, false, true⟩ ∧
      at3.request 8 (coil (.drive .plus 4)) = ⟨false, false, false, false⟩ ∧
      ({ at3 with coils := [{ coil (.drive .plus 9) with outputs := ⟨false, true, false, false⟩,
                                                         offClocks := ⟨255, 7, 4, 2⟩ }] } : Station).coilClock.coils.map
        (fun c => (c.outputs, c.offClocks)) = [(⟨false, false, false, true⟩, ⟨255, 0, 5, 0⟩)] := by decide +kernel

theorem test_meets_StoreRead :
    let s : State := { on online with store := { Store.erased with page1 := [(63, 1)], mark1 := true } }
    s.station.mode ≠ .loading ∧ s.store.busy = none ∧
      answerOf (.storeRead 7 1) s = some (.ok, .page (List.replicate 63 0xFF ++ [1]) true) ∧
      answerOf (.storeRead 7 0) { s with store := { s.store with busy := some (.erase, 1) } } = some (.busy, .empty) := by
  decide +kernel

/-- STAGE at the offsets where its clauses meet, with bytes beyond the buffer's end. -/
theorem test_meets_Stage :
    let st : Station := { online with mode := .maintenance }
    let s : State := { on st with store := { Store.erased with offset := 62 } }
    let staged := fun start data => match exec (.storeStage 7 start data) s with
      | .next t => (t.store.buffer, t.store.offset)
      | _ => ([], 0)
    s.store.Canonical ∧ staged 0 [1, 2] = ([(0, 1), (1, 2)], 2) ∧ staged 255 [1] = ([(62, 1)], 63) ∧
      staged 255 [1, 2, 3] = ([(62, 1), (63, 3)], 63) ∧ staged 63 [] = ([], 63) ∧
      answerOf (.storeStage 7 255 [1, 2, 3]) s = some (.ok, .numbers 2 63) ∧
      answerOf (.storeClearBuffer 7) s = some (.ok, .empty) :=
  ⟨⟨rfl, rfl, rfl, by decide⟩, by decide +kernel⟩

/-- ERASE and COMMIT in the station states that take them and that do not, busy and not, and both completions. -/
theorem test_meets_EraseAndCommit :
    let st : Station := { online with mode := .unconfigured }
    let store : Store := { Store.erased with page0 := [(0, 0xF0)], buffer := [(0, 0x3C), (1, 1)], offset := 2 }
    let s : State := { on st with store }
    let ended := fun op => match exec .storeOperationComplete { s with store := { store with busy := some (op, 0), mark0 := true } } with
      | .next t => (t.store.page0, t.store.mark0, t.store.busy, t.reports.queue.map fun r => r.body)
      | _ => ([], true, none, [])
    answerOf (.storeErase 7 0) { s with station := online } = some (.state, .empty) ∧
      answerOf (.storeCommit 7 1) { s with store := { store with busy := some (.erase, 0) } } = some (.busy, .empty) ∧
      (match exec (.storeErase 7 1) s with
        | .next t => (t.store.mark1, t.store.busy)
        | _ => (false, none)) = (true, some (.erase, 1)) ∧
      ended .erase = ([], false, none, [.storeDone .erase 0]) ∧
      ended .commit = ([(0, 0x30), (1, 1)], false, none, [.storeDone .commit 0]) := by decide +kernel

end Sys2Proof.Tests
end

section
/-! The invariant of the block (`State.Safe`) through every command: each command's meaning is a next state, and that
state is safe (R5, R21, R101, R106, R112, R125, R133, R155, R166 to R172, R176). Laws/Safe.lean has the shared operations;
here stand the commands that need more than one of them, then the case split over the commands. -/

namespace Sys2Proof.Machine

open Sys2Proof.Config

/-- The outcome is a next state, and that state is within the invariant. -/
def SafeNext (o : Host.Outcome State Fault Refusal) : Prop := ∃ t : State, o = .next t ∧ t.Safe

theorem State.Safe.next {t : State} (h : t.Safe) : SafeNext (.next t) := ⟨t, rfl, h⟩

/-! ## The first tests and the end of an event -/

/-- A command's own rule has to keep the invariant only where its parameters lie in their ranges (R163). -/
theorem State.Safe.decideInRange {s own : State} (h : s.Safe) (q : Nat) (taken : Bool) {inRange : Bool}
    (ho : inRange = true → own.Safe) : (s.decide q taken inRange own).Safe := by
  cases inRange with
  | true => exact h.decide (ho rfl) q taken true
  | false =>
    have hown : s.decide q taken false own = s.decide q taken false s := by cases taken <;> rfl
    exact hown ▸ h.decide h q taken false

/-- As `State.Safe.decideInRange`, for a command of the store (R174). -/
theorem State.Safe.storeCommandInRange {s own : State} (h : s.Safe) (q : Nat) (write : Bool) {inRange : Bool}
    (ho : inRange = true → own.Safe) : (s.storeCommand q write inRange own).Safe := by
  refine h.decideInRange q _ fun hr => ?_
  unfold State.answerPlain
  (repeat' split) <;> first | exact h.answer _ _ _ | exact ho hr

/-- An event whose work keeps the tables and the kept fields ends within the invariant. -/
theorem State.Safe.commitKept {s : State} (h : s.Safe) {st : Station} (ht : st.Tabled)
    (hk : st.kept = s.station.kept) : (s.commit st).Safe :=
  h.commit ht (h.station.bounded.of_kept hk)

/-- Another station within its limits in place of the station. -/
theorem State.Safe.stationTo {s : State} (h : s.Safe) {st : Station} (hs : st.Limited) :
    ({ s with station := st } : State).Safe :=
  ⟨h.reports, h.store, hs⟩

/-! ## The command port (R133) -/

/-- Keeping first places alone makes no list longer. -/
theorem length_firstPlaces_le (ms : List MoverId) : (firstPlaces ms).length ≤ ms.length := by
  have key : ∀ (ms kept : List MoverId),
      (ms.foldl (fun kept m => if kept.contains m then kept else kept ++ [m]) kept).length ≤ kept.length + ms.length := by
    intro ms
    induction ms with
    | nil => exact fun kept => Nat.le_refl _
    | cons m ms ih =>
      intro kept
      refine Nat.le_trans (ih _) ?_
      dsimp only
      split <;> simp only [List.length_append, List.length_cons, List.length_nil] <;> omega
  exact Nat.le_trans (key ms []) (by simp)

/-- The watch table replaced within its size (R133). -/
theorem Station.Limited.watching {st : Station} (h : st.Limited) (mode : WatchMode) {ms : List MoverId}
    (hl : ms.length ≤ watchListSize) : ({ st with watchMode := mode, watchList := ms } : Station).Limited :=
  { h with tabled := h.tabled.same rfl rfl, watchList := hl }

/-- WATCH SET (R133): the list put in force is no longer than the one in range. -/
theorem execWatchSet_safe {s : State} (h : s.Safe) (q mode : Nat) (ms : List Nat) : SafeNext (execWatchSet q mode ms s) := by
  refine State.Safe.next (h.decideInRange q _ fun hr => ?_)
  simp only [watchParamsOk, Bool.and_eq_true, decide_eq_true_eq] at hr
  obtain ⟨⟨-, hlen⟩, -⟩ := hr
  exact (h.stationTo (h.station.watching _ (Nat.le_trans (length_firstPlaces_le ms) hlen))).answer _ _ _

/-- AGE_TIMER_EXPIRY (R171). -/
theorem execAgeTimerExpiry_safe {s : State} (h : s.Safe) : SafeNext (execAgeTimerExpiry s) := by
  refine State.Safe.next ?_
  split
  · exact h.reportsTo h.reports.tick
  · exact h

/-! ## Station control (R111 to R113, R121) -/

/-- RESTART (R113). -/
theorem execRestart_safe {s : State} (h : s.Safe) (q : Nat) : SafeNext (execRestart q s) := by
  refine (h.decide ?_ _ _ _).next
  split
  · exact h.answer _ _ _
  · exact ⟨h.reports, h.store.clearBuffer, Station.atReset_limited _ _⟩

/-- LOADING_END (R111). -/
theorem execLoadingEnd_safe {s : State} (h : s.Safe) : SafeNext (execLoadingEnd s) := by
  refine State.Safe.next ?_
  split
  · obtain ⟨ht, hb⟩ := h.loaded s.free
    have hc := h.commit ht hb
    exact ⟨hc.reports, hc.store, hc.station⟩
  · exact h

/-- MAINTENANCE (R121). -/
theorem execMaintenance_safe {s : State} (h : s.Safe) (q : Nat) : SafeNext (execMaintenance q s) := by
  refine (h.decide ?_ _ _ _).next
  split
  · exact h.answer _ _ _
  split
  · exact h.answer _ _ _
  split
  · exact h.answer _ _ _
  · exact (h.commit (Station.tabled_enterMaintenance h.station.tabled) h.station.bounded.enterMaintenance).answer _ _ _

/-! ## Orders (R59, R131) -/

/-- HALT (R59): each entry treated is aborted. -/
theorem execHalt_safe {s : State} (h : s.Safe) (q : Nat) : SafeNext (execHalt q s) :=
  (h.decide ((h.commitKept
    (Station.tabled_foldl Station.applyAbort (fun _ _ ht => Station.tabled_applyAbort ht) _ _ h.station.tabled)
    (Station.kept_foldl Station.applyAbort Station.applyAbort_kept _ _)).answer _ _ _) _ _ _).next

/-- MOVE (R45, R124). -/
theorem execMove_safe {s : State} (h : s.Safe) (q m : Nat) (p : MoveParams) : SafeNext (execMove q m p s) := by
  refine (h.decide ?_ _ _ _).next
  split
  · exact h.order _ _ _ _
  · exact h

/-- ORDER_TIMEOUT (R131): an order leaves the pending order table and is reported. -/
theorem execOrderTimeout_safe {s : State} (h : s.Safe) (tag : Nat) : SafeNext (execOrderTimeout tag s) := by
  refine (h.whenRunning _ _ ?_).next
  have ht := h.station.tabled
  have hb := h.station.bounded
  unfold Station.endWaiting
  split
  · exact ⟨ht, hb⟩
  · exact ⟨Station.tabled_report (ht.same rfl rfl), (hb.endOrder tag).of_kept (Station.report_kept _ _)⟩

/-! ## The tables (R16, R36, R37, R144) -/

/-- ADOPT (R144, R145): the zones taken are FREE with no claim. -/
theorem execAdopt_safe {s : State} (h : s.Safe) (q m : Nat) : SafeNext (execAdopt q m s) := by
  refine (h.decide ?_ _ _ _).next
  split
  · exact h.answer _ _ _
  · rename_i e _
    unfold State.adoptEntry State.refuse
    split
    · exact h.answer _ _ _
    split
    · exact h.answer _ _ _
    split
    · exact h.answer _ _ _
    split
    · exact h.answer _ _ _
    · rename_i p _ _ hfree
      refine (h.commitKept (Station.tabled_adopt h.station.tabled fun k hk z hz => ?_)
        (Station.adopt_kept _ _ _)).answer _ _ _
      have hunused := fun hu => hfree (List.any_eq_true.2 ⟨k, hk, hu⟩)
      simpa [Station.zone?, hz] using hunused

/-- FORGET (R16, R17). -/
theorem execForget_safe {s : State} (h : s.Safe) (q m : Nat) : SafeNext (execForget q m s) := by
  refine (h.decide ?_ _ _ _).next
  split
  · exact h.answer _ _ _
  · unfold State.forgetEntry State.refuse State.answerPlain
    split
    · exact h.answer _ _ _
    split
    · exact h.answer _ _ _
    · exact (h.commitKept (Station.tabled_forget h.station.tabled) (Station.forget_kept _ _)).answer _ _ _

/-- READ MOVER (R18). -/
theorem execReadMover_safe {s : State} (h : s.Safe) (q m : Nat) : SafeNext (execReadMover q m s) := by
  refine (h.decide ?_ _ _ _).next
  unfold State.readMover State.answerPlain
  split
  · exact h.answer _ _ _
  split <;> exact h.answer _ _ _

/-- BLOCK (R36). -/
theorem execBlock_safe {s : State} (h : s.Safe) (q g : Nat) : SafeNext (execBlock q g s) := by
  refine (h.decide ?_ _ _ _).next
  split
  · exact h.answer _ _ _
  · unfold State.blockCommand State.refuse State.answerPlain
    split
    · exact h.answer _ _ _
    · exact h.answer _ _ _
    · split
      · exact h.answer _ _ _
      · exact (h.commitKept (Station.tabled_blockZone h.station.tabled) (Station.blockZone_kept _ _ _)).answer _ _ _

/-- UNBLOCK (R37). -/
theorem execUnblock_safe {s : State} (h : s.Safe) (q g : Nat) : SafeNext (execUnblock q g s) := by
  refine (h.decide ?_ _ _ _).next
  split
  · exact h.answer _ _ _
  · unfold State.unblockCommand State.answerPlain
    split
    · exact (h.commitKept (h.station.tabled.modifyFresh _) (Station.modifyZone_kept _ _ _)).answer _ _ _
    all_goals exact h.answer _ _ _

/-- READ ZONE (R38). -/
theorem execReadZone_safe {s : State} (h : s.Safe) (q g : Nat) : SafeNext (execReadZone q g s) := by
  refine (h.decide ?_ _ _ _).next
  split <;> exact h.answer _ _ _

/-! ## The drive (R148, R149, R157) -/

theorem Station.tabled_switchOn {st : Station} (h : st.Tabled) : st.switchOn.Tabled := by
  unfold Station.switchOn
  split
  · exact h
  · exact Station.tabled_setDrive (h.same rfl rfl)

theorem Station.Bounded.switchOn {st : Station} (h : st.Bounded) : st.switchOn.Bounded := by
  unfold Station.switchOn
  split
  · exact h
  · exact (h.withLatch none).withDrive .on

theorem Station.tabled_switchOff {st : Station} (h : st.Tabled) : st.switchOff.Tabled := by
  unfold Station.switchOff
  split
  · exact h
  · exact Station.tabled_denyRemoteClaims (Station.tabled_setDrive h)
  · exact Station.tabled_setDrive h

theorem Station.Bounded.switchOff {st : Station} (h : st.Bounded) : st.switchOff.Bounded := by
  unfold Station.switchOff
  split
  · exact h
  · exact (h.withDrive .off).of_kept (Station.denyRemoteClaims_kept _)
  · exact h.withDrive .off

/-- DRIVE ON (R148). -/
theorem execDriveOn_safe {s : State} (h : s.Safe) (q : Nat) : SafeNext (execDriveOn q s) := by
  refine (h.decide ?_ _ _ _).next
  split
  · exact h.answer _ _ _
  · exact (h.commit (Station.tabled_switchOn h.station.tabled) h.station.bounded.switchOn).answer _ _ _

/-- DRIVE OFF (R149). -/
theorem execDriveOff_safe {s : State} (h : s.Safe) (q : Nat) : SafeNext (execDriveOff q s) := by
  refine (h.decide ?_ _ _ _).next
  split
  · exact h.answer _ _ _
  · exact (h.commit (Station.tabled_switchOff h.station.tabled) h.station.bounded.switchOff).answer _ _ _

theorem Station.tabled_setInput {st : Station} (h : st.Tabled) (input : TripCause) (level : Bool) :
    (st.setInput input level).Tabled := by
  cases input <;> exact h.same rfl rfl

/-- TRIP_INPUT_ACTIVE (R157). -/
theorem execTripInputActive_safe {s : State} (h : s.Safe) (input : TripCause) : SafeNext (execTripInputActive input s) := by
  have ht := Station.tabled_setInput h.station.tabled input true
  have hb := h.station.bounded.setInput input true
  refine State.Safe.next ?_
  split
  · exact h.commit (Station.tabled_inputActive ht) (hb.inputActive input)
  · exact h.commit ht hb

/-- DEADTIME_ELAPSED (R156). -/
theorem execDeadtimeElapsed_safe {s : State} (h : s.Safe) (coil : Nat) (switch : SwitchName) :
    SafeNext (execDeadtimeElapsed coil switch s) := by
  refine State.Safe.next ?_
  split
  · exact h.after _ _ _
  · exact h

/-! ## Expiries and scans (R46, R115, R136 to R142) -/

/-- CONTROL_PERIOD_EXPIRY (R46). -/
theorem execControlPeriodExpiry_safe {s : State} (h : s.Safe) : SafeNext (execControlPeriodExpiry s) := by
  refine State.Safe.next ?_
  split
  · exact h.expiry _
  · exact h

/-- SCAN (R136 to R142). -/
theorem execScan_safe {s : State} (h : s.Safe) (bits : StrobedBits) : SafeNext (execScan bits s) := by
  refine State.Safe.next ?_
  split
  · exact h.commit (Station.tabled_workScan h.station.tabled) (h.station.bounded.workScan _)
  · exact h

/-- LOSS_COUNT_EXPIRY (R142). -/
theorem execLossCountExpiry_safe {s : State} (h : s.Safe) (m : Nat) : SafeNext (execLossCountExpiry m s) := by
  refine State.Safe.next ?_
  split
  · exact h.commitKept (Station.tabled_loseMover h.station.tabled) (Station.loseMover_kept _ _)
  · exact h

/-! ## The link and the store (R94, R105, R175, R176) -/

/-- What the line brings changes neither table. -/
theorem Station.tabled_readOff {st : Station} (h : st.Tabled) (r : LineReading) : (st.readOff r).Tabled := by
  cases r with
  | nothing => exact h
  | error => exact h.same rfl rfl
  | frame f =>
    unfold Station.readOff Station.receive
    (repeat' split) <;> exact h.same rfl rfl

/-- ATTEMPT_END (R94, R96). -/
theorem execAttemptEnd_safe {s : State} (h : s.Safe) (slot : SlotReading) : SafeNext (execAttemptEnd slot s) := by
  refine (h.whenRunning _ _ ?_).next
  split
  · exact ⟨h.station.tabled, h.station.bounded⟩
  · exact ⟨Station.tabled_endAttempt h.station.tabled, h.station.bounded.endAttempt _ _⟩

/-- STORE STAGE (R176): a start in range leaves an offset in range. -/
theorem execStoreStage_safe {s : State} (h : s.Safe) (q start : Nat) (data : List Byte) :
    SafeNext (execStoreStage q start data s) := by
  refine (h.storeCommandInRange q _ fun hr => ?_).next
  have hs : start < pageSize ∨ start = stageContinue := by simpa [stageStartOk] using hr
  exact (h.storeTo (h.store.stage hs data)).answer _ _ _

/-- STORE_OPERATION_COMPLETE (R175). -/
theorem execStoreOperationComplete_safe {s : State} (h : s.Safe) : SafeNext (execStoreOperationComplete s) := by
  refine State.Safe.next ?_
  split
  · exact h
  · exact (h.commitKept (Station.tabled_report h.station.tabled) (Station.report_kept _ _)).storeTo
      (h.store.complete _ _)

/-! ## Every command -/

/-- Every command run on a safe state gives a next state, and that state is safe. -/
theorem exec_safe {s : State} (h : s.Safe) (c : Instr) : SafeNext (exec c s) := by
  have ht := h.station.tabled
  cases c with
  | pinReset => exact State.Safe.next ⟨Reports.Consistent.atReset, h.store.pinReset _, Station.atReset_limited _ _⟩
  | nullMessage => exact State.Safe.next ⟨h.reports, h.store, h.station⟩
  | malformedMessage second => exact (h.answer _ _ _).next
  | status q => exact (h.decide (h.answer _ _ _) _ _ _).next
  | readReports q n => exact (h.decide ((h.reportsTo (h.reports.remove n)).answer _ _ _) _ _ _).next
  | ackFlags q classes => exact (h.decide ((h.reportsTo (h.reports.ack _ _)).answer _ _ _) _ _ _).next
  | setMask q masks => exact (h.decide ((h.reportsTo (h.reports.setMasks _)).answer _ _ _) _ _ _).next
  | setMitigation q t a => exact (h.decide ((h.reportsTo (h.reports.setMitigation t a)).answer _ _ _) _ _ _).next
  | move q m p => exact execMove_safe h q m p
  | abort q m => exact (h.decide (h.order _ _ _ _) _ _ _).next
  | clear q m => exact (h.decide (h.order _ _ _ _) _ _ _).next
  | halt q => exact execHalt_safe h q
  | adopt q m => exact execAdopt_safe h q m
  | forget q m => exact execForget_safe h q m
  | block q g => exact execBlock_safe h q g
  | unblock q g => exact execUnblock_safe h q g
  | driveOn q => exact execDriveOn_safe h q
  | driveOff q => exact execDriveOff_safe h q
  | readMover q m => exact execReadMover_safe h q m
  | readZone q g => exact execReadZone_safe h q g
  | readSides q => exact (h.decide (h.answer _ _ _) _ _ _).next
  | watchSet q mode ms => exact execWatchSet_safe h q mode ms
  | maintenance q => exact execMaintenance_safe h q
  | storeRead q p => exact (h.storeCommand (h.answer _ _ _) _ _ _).next
  | storeErase q p => exact (h.storeCommand ((h.storeTo (h.store.start .erase p)).answer _ _ _) _ _ _).next
  | storeStage q start data => exact execStoreStage_safe h q start data
  | storeCommit q p => exact (h.storeCommand ((h.storeTo (h.store.start .commit p)).answer _ _ _) _ _ _).next
  | storeClearBuffer q => exact (h.storeCommand ((h.storeTo h.store.clearBuffer).answer _ _ _) _ _ _).next
  | restart q => exact execRestart_safe h q
  | storeOperationComplete => exact execStoreOperationComplete_safe h
  | controlPeriodExpiry => exact execControlPeriodExpiry_safe h
  | followCountExpiry m => exact (h.kept _ _ (Station.tabled_followCheck ht) (Station.followCheck_kept _ _)).next
  | dwellEnd m => exact (h.kept _ _ (Station.tabled_dwellTick ht) (Station.dwellTick_kept _ _)).next
  | zoneTimeout m => exact (h.kept _ _ (Station.tabled_zoneWaitTick ht) (Station.zoneWaitTick_kept _ _)).next
  | claimAnswerTimeout m => exact (h.kept _ _ (Station.tabled_claimTimer ht) (Station.claimTimer_kept _ _)).next
  | handoverAnswerTimeout m =>
    exact (h.kept _ _ (Station.tabled_handoverTimer ht) (Station.handoverTimer_kept _ _)).next
  | trackLoss m => exact (h.kept _ _ (Station.tabled_visitorWork ht) (Station.visitorWork_kept _ _)).next
  | joinCountExpiry => exact (h.whenRunning _ _ ⟨Station.tabled_joinTick ht, h.station.bounded.joinTick⟩).next
  | probeCountExpiry d => exact (h.kept _ _ (Station.tabled_probeTick ht) (Station.probeTick_kept _ _)).next
  | orderTimeout tag => exact execOrderTimeout_safe h tag
  | ageTimerExpiry => exact execAgeTimerExpiry_safe h
  | scan bits => exact execScan_safe h bits
  | lossCountExpiry m => exact execLossCountExpiry_safe h m
  | tripInputActive input => exact execTripInputActive_safe h input
  | pwmTurn => exact (h.after _ _ _).next
  | deadtimeElapsed coil switch => exact execDeadtimeElapsed_safe h coil switch
  | frameReceived bits =>
    exact (h.whenRunning _ _ ⟨Station.tabled_readOff ht _, h.station.bounded.readOff _⟩).next
  | transmitStart rivals =>
    exact (h.whenRunning _ _ ⟨Station.tabled_contend ht, h.station.bounded.contend _⟩).next
  | attemptEnd slot => exact execAttemptEnd_safe h slot
  | tripInputInactive input =>
    exact (h.commit (Station.tabled_setInput ht input false) (h.station.bounded.setInput input false)).next
  | pwmCompareReached coil => exact (h.after _ _ _).next
  | loadingEnd => exact execLoadingEnd_safe h
  | presentFrame | noticeFrame | claimFrame | cancelFrame | releaseFrame | grantFrame | queuedFrame | deniedFrame
  | deferredFrame | handoverFrame | takenFrame | overheardTaken | refusedFrame | trackFrame | orderFrame
  | orderReplyFrame => exact (h.take _).next

/-- Settles O14: the front command runs on a state that differs in its queue alone, and on an empty queue a coil clock
passes. -/
theorem stepKeepsSafe : Obligations.StepKeepsSafe := by
  intro s h
  unfold step
  split
  · exact (h.stationTo h.station.coilClock).next
  · rename_i c rest _
    have hrest : ({ s with pending := rest } : State).Safe := ⟨h.reports, h.store, h.station⟩
    exact exec_safe hrest c

end Sys2Proof.Machine
end

section
/-! R3, R4 and R18: the zones that a body touches, and what READ MOVER answers. -/

namespace Sys2Proof.Machine

open Sys2Proof.Config

/-! ## Ranges of zone numbers and bodies (R3, R4) -/

theorem mem_rangeIncl {a b g : Nat} : g ∈ rangeIncl a b ↔ a ≤ g ∧ g ≤ b := by
  simp only [rangeIncl, List.mem_map, List.mem_range]
  constructor
  · rintro ⟨i, hi, rfl⟩
    omega
  · rintro ⟨ha, hb⟩
    exact ⟨g - a, by omega, by omega⟩

theorem pairwise_rangeIncl (a b : Nat) : (rangeIncl a b).Pairwise (· < ·) :=
  List.pairwise_lt_range.map _ fun _ _ h => Nat.add_lt_add_right h a

@[simp] theorem length_rangeIncl (a b : Nat) : (rangeIncl a b).length = b + 1 - a := by
  simp [rangeIncl]

/-- The zones between two positions ascend. -/
theorem pairwise_zonesBetween (low high : Position) : (zonesBetween low high).Pairwise (· < ·) := by
  unfold zonesBetween
  split
  · exact pairwise_rangeIncl _ _
  · exact List.Pairwise.nil

/-- A zone lies between two positions when it holds a position from the one to the other (R3). -/
theorem mem_zonesBetween {low high g : Nat} (hle : low ≤ high) :
    g ∈ zonesBetween low high ↔ g ≤ 5591 ∧ ∃ q, low ≤ q ∧ q ≤ high ∧ q / 3000 = g := by
  by_cases hin : low ≤ maxZonedPosition
  · rw [zonesBetween, if_pos hin, mem_rangeIncl]
    simp only [maxZonedPosition, zoneLength] at hin ⊢
    constructor
    · rintro ⟨ha, hb⟩
      refine ⟨by omega, ?_⟩
      rcases Nat.le_total low (3000 * g) with hlow | hlow
      · exact ⟨3000 * g, hlow, by omega, by omega⟩
      · exact ⟨low, Nat.le_refl _, by omega, by omega⟩
    · rintro ⟨hg, q, hl, hh, hq⟩
      omega
  · rw [zonesBetween, if_neg hin]
    simp only [maxZonedPosition] at hin
    simp only [List.not_mem_nil, false_iff, not_and, not_exists]
    intro hg q hl hh
    omega

/-- The zones of a body clear of the track ends, by number (R4). -/
theorem length_bodyZones {p : Nat} (hlow : 2000 ≤ p) (hhigh : p + 1999 ≤ 16775999) :
    (bodyZones p).length = if 1001 ≤ p % 3000 ∧ p % 3000 ≤ 1999 then 3 else 2 := by
  have hin : p - bodyBelow ≤ maxZonedPosition := Nat.le_trans (Nat.sub_le _ _) (by simp only [maxZonedPosition]; omega)
  have hlen : (bodyZones p).length = (p + bodyAbove) / zoneLength + 1 - (p - bodyBelow) / zoneLength := by
    rw [bodyZones, zonesBetween, if_pos hin, length_rangeIncl,
      Nat.min_eq_left (show p + bodyAbove ≤ maxZonedPosition from hhigh)]
  rw [hlen]
  simp only [bodyBelow, bodyAbove, zoneLength]
  split <;> omega

/-- Settles O16: a zone is touched when it holds a position of the body (R4), and the count follows from the remainder of
the position by the length of a zone. -/
theorem bodyTouchesZones : Obligations.BodyTouchesZones := by
  intro p _
  refine ⟨fun g => ?_, pairwise_zonesBetween _ _, length_bodyZones⟩
  rw [bodyZones, mem_zonesBetween (Nat.le_trans (Nat.sub_le _ _) (Nat.le_add_right _ _))]
  simp only [bodyBelow, bodyAbove, Nat.sub_le_iff_le_add]

/-! ## READ MOVER (R18) -/

/-- In a station state that takes the command and with its parameters in range (R163), the command's own rule decides. -/
theorem State.decide_taken (s own : State) (q : Nat) {taken inRange : Bool} (ht : taken = true) (hr : inRange = true) :
    s.decide q taken inRange own = own := by
  subst ht hr
  rfl

/-- READ MOVER in JOINING, ONLINE or MAINTENANCE with a mover ID in range. -/
theorem exec_readMover {s : State} (h : s.station.mode.started = true) (q : Nat) {m : Nat} (hm : m ≤ 4095) :
    exec (.readMover q m) s = .next (s.readMover q m) := by
  refine congrArg Host.Outcome.next (s.decide_taken _ q h ?_)
  simp only [moverParamOk, Bool.or_eq_true, Bool.and_eq_true, decide_eq_true_eq]
  omega

theorem Station.entry?_mem {st : Station} {m : MoverId} {e : Entry} (h : st.entry? m = some e) : e ∈ st.entries :=
  List.mem_of_find?_eq_some h

/-- Settles O17, by the three cases of R18. -/
theorem readMoverCopiesTheTable : Obligations.ReadMoverCopiesTheTable := by
  intro q m s hstarted htabled
  refine ⟨?zero, fun hlow hhigh hnone => ?absent, fun hlow hhigh e he => ?present⟩
  case zero =>
    rintro rfl
    refine ⟨_, exec_readMover hstarted q (by omega), rfl, ?_, ?_⟩
    · simpa [Station.movers, Function.comp_def] using htabled.ascending
    · simpa [Station.movers, tableSize] using htabled.size
  case absent =>
    rw [exec_readMover hstarted q hhigh, State.readMover, if_neg (by omega), hnone]
    rfl
  case present =>
    refine ⟨(s.station.ownRun m).1, (s.station.ownRun m).2, ?_, Station.entry?_id he, Station.entry?_mem he, rfl, ?_, ?_⟩
    · rw [exec_readMover hstarted q hhigh, State.readMover, if_neg (by omega), he]
      rfl
    · intro hempty
      simp [Station.ownRun, hempty]
    · intro k hk
      simp [Station.ownRun, hk, Station.globalZone, Station.firstZone, zoneLength]

end Sys2Proof.Machine
end

section
/-! What an examination of wait lists (R27 to R29) can change: one induction over its looks (`Station.KeptByLooks`), and
the properties that its grants, denials and freed entries keep. -/

namespace Sys2Proof.Machine

/-- The property is kept by what an examination does at a look: a head granted, a head denied, a VISITOR's entry freed. -/
structure Station.KeptByLooks (P : Station → Prop) : Prop where
  grant : ∀ (st : Station) (k : Nat) (c : WaitClaim) (cls : ClaimClass),
    st.freeHead? k = some c → P st → P (st.grantHead k c cls)
  deny : ∀ (st : Station) (k : Nat) (c : WaitClaim) (r : DenialReason),
    st.freeHead? k = some c → P st → P ((st.popHead k).tellDenied k c r)
  erase : ∀ (st : Station) (m : MoverId), P st → P (st.eraseEntry m)

theorem Station.KeptByLooks.examineLoop {P : Station → Prop} (hP : Station.KeptByLooks P) (fuel : Nat) (ls : List Look)
    {st : Station} (h : P st) : P (Station.examineLoop fuel ls st) := by
  induction fuel generalizing ls st with
  | zero => simpa [Station.examineLoop] using h
  | succ n ih =>
    cases ls with
    | nil => simpa [Station.examineLoop] using h
    | cons l ls =>
      simp only [Station.examineLoop]
      split
      · exact ih _ h
      · rename_i c hl
        have hc := Station.freeHead_of_lookedAt hl
        split
        · exact ih _ h
        · exact ih _ (hP.grant _ _ _ _ hc h)
        · split
          · exact ih _ (hP.erase _ _ (hP.deny _ _ _ _ hc h))
          · exact ih _ (hP.deny _ _ _ _ hc h)

theorem Station.KeptByLooks.examine {P : Station → Prop} (hP : Station.KeptByLooks P) {st : Station} (h : P st)
    (ks : List Nat) : P (st.examine ks) := hP.examineLoop _ _ h

theorem Station.KeptByLooks.offerEntry {P : Station → Prop} (hP : Station.KeptByLooks P) {st : Station} (h : P st) :
    P st.offerEntry := hP.examineLoop _ _ h

/-! ## Coils and reports -/

@[simp] theorem Station.grantHead_coils (st : Station) (k : Nat) (c : WaitClaim) (cls : ClaimClass) :
    (st.grantHead k c cls).coils = st.coils := by
  unfold Station.grantHead Station.grantZone
  dsimp only
  (repeat' split) <;> rfl

@[simp] theorem Station.grantHead_outbox (st : Station) (k : Nat) (c : WaitClaim) (cls : ClaimClass) :
    (st.grantHead k c cls).outbox = st.outbox := by
  unfold Station.grantHead Station.grantZone
  dsimp only
  (repeat' split) <;> rfl

@[simp] theorem Station.grantHead_sendList (st : Station) (k : Nat) (c : WaitClaim) (cls : ClaimClass) :
    (st.grantHead k c cls).sendList = st.sendList := by
  unfold Station.grantHead Station.grantZone
  dsimp only
  (repeat' split) <;> rfl

@[simp] theorem Station.tellDenied_coils (st : Station) (k : Nat) (c : WaitClaim) (r : DenialReason) :
    (st.tellDenied k c r).coils = st.coils := by
  unfold Station.tellDenied Station.placeSend
  (repeat' split) <;> rfl

@[simp] theorem Station.tellDenied_outbox (st : Station) (k : Nat) (c : WaitClaim) (r : DenialReason) :
    (st.tellDenied k c r).outbox = st.outbox := by
  unfold Station.tellDenied Station.placeSend
  (repeat' split) <;> rfl

/-- A denial is told behind what the Send List holds. -/
theorem Station.sendList_prefix_tellDenied (st : Station) (k : Nat) (c : WaitClaim) (r : DenialReason) :
    st.sendList <+: (st.tellDenied k c r).sendList := by
  unfold Station.tellDenied Station.placeSend
  split
  · exact List.prefix_rfl
  split
  · exact List.prefix_rfl
  · exact List.prefix_append _ _

/-- An examination makes no report and touches no coil. -/
theorem Station.keptByLooks_coils_outbox (coils : List Coil) (reports : List ReportBody) :
    Station.KeptByLooks fun st => st.coils = coils ∧ st.outbox = reports where
  grant := fun st k c cls _ h => by rw [Station.grantHead_coils, Station.grantHead_outbox]; exact h
  deny := fun st k c r _ h => by rw [Station.tellDenied_coils, Station.tellDenied_outbox]; exact h
  erase := fun _ _ h => h

/-- An examination adds to the Send List at its tail. -/
theorem Station.keptByLooks_sendList (l : List LooseSend) : Station.KeptByLooks fun st => l <+: st.sendList where
  grant := fun st k c cls _ h => by rw [Station.grantHead_sendList]; exact h
  deny := fun st k c r _ h => h.trans (Station.sendList_prefix_tellDenied (st.popHead k) k c r)
  erase := fun _ _ h => h

/-! ## Zones -/

/-- A grant makes its zone HELD by the claim's mover for the claim's station (R24). -/
theorem Station.zones_grantZone (st : Station) (k : Nat) (m : MoverId) (n : Address) (cls : ClaimClass) :
    (st.grantZone k m n cls).zones = st.zones.modify k fun z =>
      { z with state := .held m n, grantOwed := if n = st.own then none else some st.freshDue } := by
  unfold Station.grantZone
  by_cases hown : n = st.own <;> simp only [hown, if_true, if_false] <;> split <;> rfl

/-- A grant to a head is one to its zone, with the claim taken out of the list (R29). -/
theorem Station.zones_grantHead (st : Station) (k : Nat) (c : WaitClaim) (cls : ClaimClass) :
    (st.grantHead k c cls).zones = st.zones.modify k fun z =>
      { state := .held c.mover c.station, grantOwed := if c.station = st.own then none else some st.freshDue,
        waiting := z.waiting.tail } := by
  have hgrant : (st.grantHead k c cls).zones = ((st.popHead k).grantZone k c.mover c.station cls).zones := by
    unfold Station.grantHead
    dsimp only
    split <;> rfl
  rw [hgrant, Station.zones_grantZone, Station.popHead, Station.modifyZone_zones, List.modify_modify_eq]
  rfl

/-- A look changes the zone of the head it examines, a FREE one with a claim, and no other. -/
theorem Station.zone_other_of_head {st : Station} {k j : Nat} {c : WaitClaim} {z : Zone} (f : Zone → Zone)
    (hc : st.freeHead? k = some c) (hz : st.zones[j]? = some z) (hset : z.state ≠ .free ∨ z.waiting = []) :
    (st.zones.modify k f)[j]? = some z := by
  obtain ⟨y, hy, hfree, hhead⟩ := Station.freeHead_spec hc
  have hne : k ≠ j := by
    rintro rfl
    obtain rfl : y = z := Option.some.inj (hy.symm.trans hz)
    rcases hset with hset | hset
    · exact hset hfree
    · simp [hset] at hhead
  simp [hne, hz]

/-- An examination leaves a zone that is not FREE, and one with no claim (R27). -/
theorem Station.keptByLooks_zone (j : Nat) {z : Zone} (hset : z.state ≠ .free ∨ z.waiting = []) :
    Station.KeptByLooks fun st => st.zones[j]? = some z where
  grant := fun st k c cls hc h => by
    rw [Station.zones_grantHead]
    exact Station.zone_other_of_head _ hc h hset
  deny := fun st k c r hc h => by
    rw [Station.zones_tellDenied]
    exact Station.zone_other_of_head _ hc h hset
  erase := fun _ _ h => h

/-! ## Entries -/

/-- Every entry's mover and state are as `Q` says. -/
def Station.EntriesAll (st : Station) (Q : MoverId → EntryState → Prop) : Prop := ∀ x ∈ st.entries, Q x.id x.state

theorem mem_insertEntry {e x : Entry} {es : List Entry} (h : x ∈ insertEntry e es) : x = e ∨ x ∈ es := by
  induction es with
  | nil => simpa [insertEntry] using h
  | cons y ys ih =>
    simp only [insertEntry] at h
    split at h
    · simpa using h
    split at h
    · exact (List.mem_cons.1 h).imp_right (List.mem_cons_of_mem y)
    · rcases List.mem_cons.1 h with rfl | h
      · exact .inr (List.mem_cons_self ..)
      · exact (ih h).imp_right (List.mem_cons_of_mem y)

theorem Station.EntriesAll.putEntry {st : Station} {Q : MoverId → EntryState → Prop} (h : st.EntriesAll Q) {e : Entry}
    (he : Q e.id e.state) : (st.putEntry e).EntriesAll Q := by
  intro x hx
  rcases mem_insertEntry hx with rfl | hx
  · exact he
  · exact h x hx

theorem Station.EntriesAll.modifyEntry {st : Station} {Q : MoverId → EntryState → Prop} (h : st.EntriesAll Q)
    (m : MoverId) {f : Entry → Entry} (hid : ∀ e, (f e).id = e.id) (hstate : ∀ e, (f e).state = e.state) :
    (st.modifyEntry m f).EntriesAll Q := by
  intro x hx
  obtain ⟨y, hy, rfl⟩ := List.mem_map.1 hx
  split
  · rw [hid, hstate]
    exact h y hy
  · exact h y hy

theorem Station.EntriesAll.eraseEntry {st : Station} {Q : MoverId → EntryState → Prop} (h : st.EntriesAll Q)
    (m : MoverId) : (st.eraseEntry m).EntriesAll Q :=
  fun x hx => h x (List.mem_filter.1 hx).1

theorem Station.EntriesAll.popHead {st : Station} {Q : MoverId → EntryState → Prop} (h : st.EntriesAll Q) (k : Nat) :
    (st.popHead k).EntriesAll Q := h

/-- The one entry that a grant can make is the VISITOR of the claim's mover (R24). -/
theorem Station.EntriesAll.grantHead {st : Station} {Q : MoverId → EntryState → Prop} (h : st.EntriesAll Q) (k : Nat)
    {c : WaitClaim} (hc : Q c.mover .visitor) (cls : ClaimClass) : (st.grantHead k c cls).EntriesAll Q := by
  have hzone : ((st.popHead k).grantZone k c.mover c.station cls).EntriesAll Q := by
    unfold Station.grantZone
    dsimp only
    (repeat' split)
    · exact Station.EntriesAll.putEntry h hc
    · exact Station.EntriesAll.putEntry h hc
    all_goals exact h
  unfold Station.grantHead
  dsimp only
  split
  · exact hzone.modifyEntry _ (fun _ => rfl) fun _ => rfl
  · exact hzone

theorem Station.EntriesAll.tellDenied {st : Station} {Q : MoverId → EntryState → Prop} (h : st.EntriesAll Q) (k : Nat)
    (c : WaitClaim) (r : DenialReason) : (st.tellDenied k c r).EntriesAll Q := by
  unfold Station.tellDenied Station.placeSend
  split
  · exact h.modifyEntry _ (fun _ => rfl) fun _ => rfl
  · split <;> exact h

/-- An examination makes no entry but VISITORs (R24, R28). -/
theorem Station.keptByLooks_visitor (m : MoverId) :
    Station.KeptByLooks fun st => st.EntriesAll fun id state => id = m → state = .visitor where
  grant := fun _ k _ cls _ h => h.grantHead k (fun _ => rfl) cls
  deny := fun _ k c r _ h => (h.popHead k).tellDenied k c r
  erase := fun _ m h => h.eraseEntry m

/-! ## A mover that is gone -/

/-- The zone is neither held by the mover nor claimed by it. -/
def Zone.Without (z : Zone) (m : MoverId) : Prop := z.state.heldBy m = false ∧ ∀ c ∈ z.waiting, c.mover ≠ m

/-- The mover has no entry, holds no own zone and waits in no own list. -/
structure Station.Without (st : Station) (m : MoverId) : Prop where
  entries : st.EntriesAll fun id _ => id ≠ m
  zones : ∀ z ∈ st.zones, z.Without m

theorem Station.Without.entry? {st : Station} {m : MoverId} (h : st.Without m) : st.entry? m = none :=
  List.find?_eq_none.2 fun x hx => by simpa using h.entries x hx

theorem Station.Without.holdings {st : Station} {m : MoverId} (h : st.Without m) : st.holdings m = [] := by
  refine List.filter_eq_nil_iff.2 fun k _ hk => ?_
  simp only [Station.holds, Station.zone?, Option.any_eq_true] at hk
  obtain ⟨z, hz, hheld⟩ := hk
  simp [(h.zones z (List.mem_of_getElem? hz)).1] at hheld

theorem Station.Without.claimedZones {st : Station} {m : MoverId} (h : st.Without m) : st.claimedZones m = [] := by
  refine List.filter_eq_nil_iff.2 fun k _ hk => ?_
  simp only [Station.claims, Station.zone?, Option.any_eq_true, List.any_eq_true, decide_eq_true_eq] at hk
  obtain ⟨z, hz, c, hc, hm⟩ := hk
  exact (h.zones z (List.mem_of_getElem? hz)).2 c hc hm

/-- An element of a list with one place changed is the changed one or stood in the list. -/
theorem mem_modify {α : Type} {f : α → α} {xs : List α} {k : Nat} {x : α} (h : x ∈ xs.modify k f) :
    x ∈ xs ∨ ∃ y ∈ xs, x = f y := by
  obtain ⟨j, hj⟩ := List.mem_iff_getElem?.1 h
  rw [List.getElem?_modify] at hj
  obtain ⟨y, hy, rfl⟩ := Option.map_eq_some_iff.1 hj
  have hmem := List.mem_of_getElem? hy
  split
  · exact .inr ⟨y, hmem, rfl⟩
  · exact .inl hmem

/-- A mover that is gone comes back by no examination: the heads it grants are of other movers. -/
theorem Station.keptByLooks_without (m : MoverId) : Station.KeptByLooks fun st => st.Without m where
  grant := fun st k c cls hc h => by
    obtain ⟨y, hy, -, hhead⟩ := Station.freeHead_spec hc
    have hclaims := (h.zones y (List.mem_of_getElem? hy)).2
    have hne : c.mover ≠ m := hclaims c (List.mem_of_mem_head? hhead)
    refine ⟨h.entries.grantHead k hne cls, fun z hz => ?_⟩
    rw [Station.zones_grantHead] at hz
    rcases mem_modify hz with hz | ⟨w, hw, rfl⟩
    · exact h.zones z hz
    · exact ⟨by simpa [ZoneState.heldBy] using hne, fun d hd => (h.zones w hw).2 d (List.mem_of_mem_tail hd)⟩
  deny := fun st k c r _ h => by
    refine ⟨(h.entries.popHead k).tellDenied k c r, fun z hz => ?_⟩
    rw [Station.zones_tellDenied] at hz
    rcases mem_modify hz with hz | ⟨w, hw, rfl⟩
    · exact h.zones z hz
    · exact ⟨(h.zones w hw).1, fun d hd => (h.zones w hw).2 d (List.mem_of_mem_tail hd)⟩
  erase := fun _ m' h => ⟨h.entries.eraseEntry m', h.zones⟩

end Sys2Proof.Machine
end

section
/-! FORGET (R16, R17): its loose sends, and the records it takes away before the wait lists are examined. -/

namespace Sys2Proof.Machine

open Sys2Proof.Config

/-! ## Ascending zone lists and their runs (R16) -/

theorem mem_insertZone {g x : Nat} {l : List Nat} : x ∈ insertZone g l ↔ x = g ∨ x ∈ l := by
  induction l with
  | nil => simp [insertZone]
  | cons y ys ih =>
    simp only [insertZone]
    split
    · simp
    split
    · next heq => subst heq; simp
    · rw [List.mem_cons, List.mem_cons, ih]
      exact or_left_comm

theorem pairwise_insertZone {g : Nat} {l : List Nat} (h : l.Pairwise (· < ·)) : (insertZone g l).Pairwise (· < ·) := by
  induction l with
  | nil => simp [insertZone]
  | cons y ys ih =>
    obtain ⟨hy, hys⟩ := List.pairwise_cons.1 h
    simp only [insertZone]
    split
    · next hlt => exact List.pairwise_cons.2 ⟨fun x hx => by
        rcases List.mem_cons.1 hx with rfl | hx
        · exact hlt
        · exact Nat.lt_trans hlt (hy x hx), h⟩
    split
    · exact h
    · next hlt hne =>
      refine List.pairwise_cons.2 ⟨fun x hx => ?_, ih hys⟩
      rcases mem_insertZone.1 hx with rfl | hx
      · omega
      · exact hy x hx

theorem mem_foldr_insertZone {x : Nat} {l : List Nat} : x ∈ l.foldr insertZone [] ↔ x ∈ l := by
  induction l with
  | nil => simp
  | cons g gs ih => simp only [List.foldr_cons, mem_insertZone, ih, List.mem_cons]

theorem pairwise_foldr_insertZone (l : List Nat) : (l.foldr insertZone []).Pairwise (· < ·) := by
  induction l with
  | nil => exact List.Pairwise.nil
  | cons g gs ih => exact pairwise_insertZone ih

/-- The runs cover the numbers of the list. -/
theorem mem_runsOf {g : Nat} {l : List Nat} : (∃ r ∈ runsOf l, r.1 ≤ g ∧ g < r.1 + r.2) ↔ g ∈ l := by
  induction l with
  | nil => simp [runsOf]
  | cons a rest ih =>
    rw [List.mem_cons, ← ih, runsOf]
    rcases runsOf rest with _ | ⟨⟨b, n⟩, more⟩
    · simp; omega
    · dsimp only
      split
      · next hb =>
        subst hb
        simp only [List.mem_cons, exists_eq_or_imp, ← or_assoc]
        refine or_congr_left ?_
        omega
      · simp only [List.mem_cons, exists_eq_or_imp]
        refine or_congr_left ?_
        omega

/-- No run is empty. -/
theorem runsOf_pos {l : List Nat} : ∀ r ∈ runsOf l, 1 ≤ r.2 := by
  induction l with
  | nil => simp [runsOf]
  | cons a rest ih =>
    rw [runsOf]
    rcases hr : runsOf rest with _ | ⟨⟨b, n⟩, more⟩ <;> rw [hr] at ih
    · simp
    · obtain ⟨-, hmore⟩ := List.forall_mem_cons.1 ih
      dsimp only
      split
      · exact List.forall_mem_cons.2 ⟨Nat.le_add_left 1 n, hmore⟩
      · exact List.forall_mem_cons.2 ⟨Nat.le_refl 1, ih⟩

/-- The first run begins with the first number. -/
theorem runsOf_head (l : List Nat) : (runsOf l).head?.map Prod.fst = l.head? := by
  cases l with
  | nil => rfl
  | cons a rest =>
    rw [runsOf]
    rcases runsOf rest with _ | ⟨⟨b, n⟩, more⟩
    · rfl
    · dsimp only
      split <;> rfl

/-- The runs of an ascending list are as long as they can be: between one and the next a number is missing. -/
theorem pairwise_runsOf {l : List Nat} (h : l.Pairwise (· < ·)) :
    (runsOf l).Pairwise fun r r' => r.1 + r.2 < r'.1 := by
  induction l with
  | nil => exact List.Pairwise.nil
  | cons a rest ih =>
    obtain ⟨ha, hrest⟩ := List.pairwise_cons.1 h
    have hruns := ih hrest
    have hhead := runsOf_head rest
    rw [runsOf]
    rcases hr : runsOf rest with _ | ⟨⟨b, n⟩, more⟩
    · exact List.pairwise_singleton _ _
    · rw [hr] at hruns hhead
      obtain ⟨hb, hmore⟩ := List.pairwise_cons.1 hruns
      have hab : a < b := ha b (List.mem_of_mem_head? (Option.mem_def.2 hhead.symm))
      dsimp only
      split
      · refine List.pairwise_cons.2 ⟨fun r hmem => ?_, hmore⟩
        have := hb r hmem
        omega
      · refine List.pairwise_cons.2 ⟨fun r hmem => ?_, hruns⟩
        rcases List.mem_cons.1 hmem with rfl | hmem
        · dsimp only; omega
        · have := hb r hmem
          dsimp only at this ⊢; omega

/-! ## The loose sends (R16, R17) -/

theorem Entry.mem_owedZones {e : Entry} {g : ZoneNo} :
    g ∈ e.owedZones ↔ g ∈ e.remote ∨ g ∈ e.releaseZones .lower ∨ g ∈ e.releaseZones .upper := by
  rw [Entry.owedZones, mem_foldr_insertZone, List.mem_append, List.mem_append, or_assoc]

/-- An attempt of the mover's CLAIM for that zone is under way (R43). -/
theorem Station.claimUnderWay_iff (st : Station) (m : MoverId) (g : ZoneNo) :
    st.claimUnderWay m g = true ↔ ∃ a flag, st.attempt = some a ∧ a.content = .claim m g flag := by
  unfold Station.claimUnderWay
  cases st.attempt with
  | none => simp
  | some a =>
    simp only [Option.any_some, Option.some.injEq, exists_and_left, exists_eq_left']
    cases a.content with
    | claim m' g' flag => simp
    | _ => simp

/-- The zone a CANCEL is owed for besides that of CANCEL due (R16). -/
theorem Station.mem_sentClaim (st : Station) (e : Entry) (g : ZoneNo) :
    g ∈ (st.sentClaim e).toList ↔ ∃ c, e.claim = some c ∧ c.zone = g ∧ st.localIndex g = none ∧
      (1 ≤ c.sends ∨ ∃ a flag, st.attempt = some a ∧ a.content = .claim e.id g flag) := by
  simp only [Station.sentClaim, Option.mem_toList, Option.bind_eq_some_iff, Option.ite_none_right_eq_some,
    Bool.and_eq_true, Bool.or_eq_true, decide_eq_true_eq, Option.isNone_iff_eq_none, Option.some.injEq,
    Station.claimUnderWay_iff]
  refine exists_congr fun c => and_congr_right fun _ => ?_
  constructor
  · rintro ⟨⟨hlocal, hsent⟩, rfl⟩
    exact ⟨rfl, hlocal, hsent⟩
  · rintro ⟨rfl, hlocal, hsent⟩
    exact ⟨⟨hlocal, hsent⟩, rfl⟩

theorem Station.forgetSends_visitor {st : Station} {e : Entry} (h : e.state = .visitor) :
    st.forgetSends e =
      (st.claimedZones e.id).map fun k => (e.owner.getD 63, .denied e.id (st.firstZone + k) .state) := by
  simp [Station.forgetSends, h, Station.globalZone]

theorem Station.forgetSends_resident {st : Station} {e : Entry} (h : e.state = .resident) :
    st.forgetSends e = e.takenDue.toList.map (fun t => (t.1, .taken e.id)) ++
      (runsOf e.owedZones).map (fun r => (st.neighbourOf r.1, .release e.id r.1 r.2)) ++
      (e.cancelDue.toList.map Prod.fst ++ (st.sentClaim e).toList).map fun g => (st.neighbourOf g, .cancel e.id g) := by
  simp [Station.forgetSends, h]

theorem Station.forgetSends_stray {st : Station} {e : Entry} (h : e.state = .stray) : st.forgetSends e = [] := by
  simp [Station.forgetSends, h]

/-- Sends for which the Send List has room are all placed, in their order, with the next places in due order (R101,
R102). -/
theorem Station.foldl_placeSend (sends : List (Address × Frame)) (st : Station) (h : sends.length ≤ st.sendsFree) :
    sends.foldl (fun st p => st.placeSend p.1 p.2) st =
      { st with
        sendList := st.sendList ++ sends.mapIdx fun i p =>
          { destination := p.1, content := p.2, due := { place := st.nextPlace + i, tries := 0, pass := 0 } }
        nextPlace := st.nextPlace + sends.length } := by
  induction sends generalizing st with
  | nil => simp
  | cons p sends ih =>
    have hfree : st.sendsFree ≠ 0 := by simp only [List.length_cons] at h; omega
    have hplaced : st.placeSend p.1 p.2 =
        { st with sendList := st.sendList ++ [{ destination := p.1, content := p.2, due := st.freshDue }]
                  nextPlace := st.nextPlace + 1 } := if_neg hfree
    rw [List.foldl_cons, hplaced, ih]
    · simp [Station.freshDue, Nat.add_assoc, Nat.add_comm 1]
    · simp only [Station.sendsFree, List.length_append, List.length_cons, List.length_nil] at h ⊢
      omega

/-! ## The records (R17) -/

theorem foldl_modify_getElem? {α : Type} {f : α → α} (hf : ∀ x, f (f x) = f x) (ks : List Nat) (xs : List α) (j : Nat) :
    (ks.foldl (fun xs k => xs.modify k f) xs)[j]? = (xs[j]?).map fun x => if j ∈ ks then f x else x := by
  induction ks generalizing xs with
  | nil => simp
  | cons k ks ih =>
    rw [List.foldl_cons, ih, List.getElem?_modify, Option.map_eq_map, Option.map_map]
    refine congrArg (fun g => Option.map g xs[j]?) (funext fun x => ?_)
    by_cases hk : k = j
    · subst hk
      by_cases hks : k ∈ ks <;> simp [hks, hf]
    · simp [hk, Ne.symm hk]

/-- Zones freed one after the other: each is FREE without GRANT owed and its coil unassigned, and nothing else changes
(R19). -/
theorem Station.foldl_freeZone (ks : List Nat) (st : Station) :
    ks.foldl Station.freeZone st =
      { st with zones := ks.foldl (fun zs k => zs.modify k fun z => { z with state := .free, grantOwed := none }) st.zones
                coils := ks.foldl (fun cs k => cs.modify k Coil.unassign) st.coils } := by
  induction ks generalizing st with
  | nil => rfl
  | cons k ks ih => rw [List.foldl_cons, ih]; rfl

theorem Station.mem_holdings {st : Station} {m : MoverId} {k : Nat} : k ∈ st.holdings m ↔ st.holds m k = true := by
  simp only [Station.holdings, Station.localZones, List.mem_filter, List.mem_range, and_iff_right_iff_imp]
  intro h
  obtain ⟨z, hz, -⟩ := (Option.any_eq_true _ _).1 h
  exact (List.getElem?_eq_some_iff.1 hz).1

/-- The station with the sends of a forgetting placed, and its zones, claims and entry gone (R17), before the examination:
what `Station.forget_eq` ties to the model. -/
def Station.forgotten (st : Station) (e : Entry) : Station :=
  { st with
    sendList := st.sendList ++ (st.forgetSends e).mapIdx fun i p =>
      { destination := p.1, content := p.2, due := { place := st.nextPlace + i, tries := 0, pass := 0 } }
    nextPlace := st.nextPlace + (st.forgetSends e).length
    zones := st.zones.map fun z =>
      { state := if z.state.heldBy e.id then .free else z.state
        grantOwed := if z.state.heldBy e.id then none else z.grantOwed
        waiting := z.waiting.filter fun c => decide ¬(e.state ≠ .stray ∧ c.mover = e.id) }
    coils := st.coils.mapIdx fun k c =>
      if st.holds e.id k then { c with assigned := none, preloaded := .unassigned, applied := .unassigned } else c
    entries := st.entries.filter fun x => x.id ≠ e.id }

/-- Of the movers that FORGET takes, all but a STRAY's lose their claims (R17; log entry 38). -/
theorem Entry.claimsGo_eq {e : Entry} (h : e.state ≠ .handing) : e.claimsGo = decide (e.state ≠ .stray) := by
  unfold Entry.claimsGo
  cases hs : e.state <;> simp_all

/-- The zones whose lists a forgetting examines (R17, R27): those it frees, and the FREE ones whose head it takes. -/
theorem Station.forgetZones_eq (st : Station) {e : Entry} (h : e.state ≠ .handing) :
    st.forgetZones e = (List.range st.zones.length).filter fun k => (st.zones[k]?).any fun z =>
      z.state.heldBy e.id ||
        decide (z.state = .free ∧ ∃ c, z.waiting.head? = some c ∧ (e.state ≠ .stray ∧ c.mover = e.id)) := by
  refine List.filter_congr fun k _ => ?_
  rw [Entry.claimsGo_eq h]
  cases hz : st.zones[k]? with
  | none => simp [Station.holds, Station.freeHead?, Station.zone?, hz]
  | some z =>
    by_cases hfree : z.state = .free
    · cases hw : z.waiting <;> simp [Station.holds, Station.freeHead?, Station.zone?, hz, hfree, hw]
    · simp [Station.holds, Station.freeHead?, Station.zone?, hz, hfree]

/-- The zone table once the mover's holdings are freed (R19). -/
theorem Station.zones_holdings_freed (st : Station) (m : MoverId) :
    (st.holdings m).foldl (fun zs k => zs.modify k fun z => { z with state := .free, grantOwed := none }) st.zones =
      st.zones.map fun z =>
        { z with state := if z.state.heldBy m then .free else z.state
                 grantOwed := if z.state.heldBy m then none else z.grantOwed } := by
  refine List.ext_getElem? fun j => ?_
  rw [foldl_modify_getElem? (f := fun z : Zone => { z with state := .free, grantOwed := none }) (fun _ => rfl),
    List.getElem?_map]
  cases hz : st.zones[j]? with
  | none => rfl
  | some z =>
    by_cases hheld : z.state.heldBy m = true <;>
      simp [Station.mem_holdings, Station.holds, Station.zone?, hz, hheld]

/-- The coils once the mover's holdings are freed (R19, R152). -/
theorem Station.coils_holdings_freed (st : Station) (m : MoverId) :
    (st.holdings m).foldl (fun cs k => cs.modify k Coil.unassign) st.coils =
      st.coils.mapIdx fun k c => if st.holds m k then c.unassign else c := by
  refine List.ext_getElem? fun j => ?_
  rw [foldl_modify_getElem? (f := Coil.unassign) (fun _ => rfl), List.getElem?_mapIdx]
  simp only [Station.mem_holdings]

/-- A STRAY's forgetting takes no claim (log entry 38). -/
theorem Entry.claims_of_stray {e : Entry} (h : e.state = .stray) (l : List WaitClaim) :
    l.filter (fun c => decide ¬(e.state ≠ .stray ∧ c.mover = e.id)) = l :=
  List.filter_eq_self.2 fun _ _ => decide_eq_true fun hc => hc.1 h

/-- The claims left by any other forgetting are those of the other movers. -/
theorem Entry.claims_of_not_stray {e : Entry} (h : e.state ≠ .stray) (l : List WaitClaim) :
    l.filter (fun c => decide ¬(e.state ≠ .stray ∧ c.mover = e.id)) = l.filter (fun c => c.mover ≠ e.id) :=
  List.filter_congr fun _ _ => decide_eq_decide.2 (not_congr (and_iff_right h))

/-- The records of a forgetting: zones, claims and entry gone (R17). -/
theorem Station.forgetRecords_eq (st : Station) {e : Entry} (h : e.state ≠ .handing) :
    st.forgetRecords e =
      { st with
        zones := st.zones.map fun z =>
          { state := if z.state.heldBy e.id then .free else z.state
            grantOwed := if z.state.heldBy e.id then none else z.grantOwed
            waiting := z.waiting.filter fun c => decide ¬(e.state ≠ .stray ∧ c.mover = e.id) }
        coils := st.coils.mapIdx fun k c =>
          if st.holds e.id k then { c with assigned := none, preloaded := .unassigned, applied := .unassigned } else c
        entries := st.entries.filter fun x => x.id ≠ e.id } := by
  unfold Station.forgetRecords
  rw [Station.foldl_freeZone, Station.zones_holdings_freed, Station.coils_holdings_freed, Entry.claimsGo_eq h]
  by_cases hs : e.state = .stray
  · simp only [Entry.claims_of_stray hs, if_neg (show ¬decide (e.state ≠ .stray) = true by simp [hs])]
    rfl
  · simp only [Entry.claims_of_not_stray hs, if_pos (show decide (e.state ≠ .stray) = true by simp [hs]), List.map_map]
    rfl

/-- A forgetting whose sends have room places them, takes the records away and then examines the lists (R17). -/
theorem Station.forget_eq {st : Station} {e : Entry} (h : e.state ≠ .handing)
    (hroom : (st.forgetSends e).length ≤ st.sendsFree) :
    st.forget e = ((st.forgotten e).examine (st.forgetZones e)).offerEntry := by
  unfold Station.forget
  rw [Station.foldl_placeSend _ _ hroom]
  dsimp only
  rw [Station.forgetRecords_eq _ h]
  rfl

/-! ## What a forgetting leaves -/

/-- What an examination keeps holds after a forgetting when it holds of the records taken away. -/
theorem Station.KeptByLooks.forget {P : Station → Prop} (hP : Station.KeptByLooks P) {st : Station} {e : Entry}
    (h : e.state ≠ .handing) (hroom : (st.forgetSends e).length ≤ st.sendsFree) (hp : P (st.forgotten e)) :
    P (st.forget e) := by
  rw [Station.forget_eq h hroom]
  exact hP.offerEntry (hP.examine hp _)

/-- The sends of a forgetting enter the Send List after what it held, and a denial at the examination after them. -/
theorem Station.forget_sendList {st : Station} {e : Entry} (h : e.state ≠ .handing)
    (hroom : (st.forgetSends e).length ≤ st.sendsFree) :
    ∃ later, (st.forget e).sendList.map (fun l => (l.destination, l.content)) =
      st.sendList.map (fun l => (l.destination, l.content)) ++ st.forgetSends e ++ later := by
  obtain ⟨later, hlater⟩ := (Station.keptByLooks_sendList (st.forgotten e).sendList).forget h hroom List.prefix_rfl
  refine ⟨later.map fun l => (l.destination, l.content), ?_⟩
  rw [← hlater, List.map_append, Station.forgotten, List.map_append]
  refine congrArg (· ++ _) (congrArg _ (List.ext_getElem? fun i => ?_))
  simp [List.getElem?_mapIdx, Function.comp_def]

/-- The examination of a forgetting leaves a zone that is not FREE, and one with no claim. -/
theorem Station.forget_zone {st : Station} {e : Entry} (h : e.state ≠ .handing)
    (hroom : (st.forgetSends e).length ≤ st.sendsFree) {k : Nat} {z : Zone}
    (hz : (st.forgotten e).zones[k]? = some z) (hset : z.state ≠ .free ∨ z.waiting = []) :
    (st.forget e).zones[k]? = some z :=
  (Station.keptByLooks_zone k hset).forget h hroom hz

/-- A zone that the mover held, with no claim waiting, is FREE with GRANT owed clear (R17). -/
theorem Station.forgotten_zone_held {st : Station} {e : Entry} {k : Nat} {z : Zone} (hz : st.zones[k]? = some z)
    (hheld : z.state.heldBy e.id = true) (hw : z.waiting = []) :
    (st.forgotten e).zones[k]? = some { state := .free, grantOwed := none, waiting := [] } := by
  simp [Station.forgotten, hz, hheld, hw]

/-- A zone that the mover does not hold loses the claims of the mover, a STRAY's none (log entry 38). -/
theorem Station.forgotten_zone_other {st : Station} {e : Entry} {k : Nat} {z : Zone} (hz : st.zones[k]? = some z)
    (hheld : z.state.heldBy e.id = false) :
    (st.forgotten e).zones[k]? =
      some (if e.state = .stray then z else { z with waiting := z.waiting.filter fun c => c.mover ≠ e.id }) := by
  by_cases hs : e.state = .stray
  · simp only [Station.forgotten, List.getElem?_map, hz, Option.map_some, hheld, Bool.false_eq_true, if_false,
      Entry.claims_of_stray hs, if_pos hs]
  · simp only [Station.forgotten, List.getElem?_map, hz, Option.map_some, hheld, Bool.false_eq_true, if_false,
      Entry.claims_of_not_stray hs, if_neg hs]

/-- A coil of a zone that the mover held is unassigned (R19, R152). -/
theorem Station.forget_coil {st : Station} {e : Entry} (h : e.state ≠ .handing)
    (hroom : (st.forgetSends e).length ≤ st.sendsFree) {k : Nat} {coil : Coil} (hk : k ∈ st.holdings e.id)
    (hc : (st.forget e).coils[k]? = some coil) :
    coil.assigned = none ∧ coil.preloaded = .unassigned ∧ coil.applied = .unassigned := by
  obtain ⟨hcoils, -⟩ := (Station.keptByLooks_coils_outbox (st.forgotten e).coils (st.forgotten e).outbox).forget h hroom
    ⟨rfl, rfl⟩
  rw [hcoils] at hc
  simp only [Station.forgotten, List.getElem?_mapIdx, Station.mem_holdings.1 hk, if_true, Option.map_eq_some_iff] at hc
  obtain ⟨c, -, rfl⟩ := hc
  exact ⟨rfl, rfl, rfl⟩

/-- A forgetting makes no report (R17). -/
theorem Station.forget_outbox {st : Station} {e : Entry} (h : e.state ≠ .handing)
    (hroom : (st.forgetSends e).length ≤ st.sendsFree) : (st.forget e).outbox = st.outbox :=
  ((Station.keptByLooks_coils_outbox (st.forgotten e).coils st.outbox).forget h hroom ⟨rfl, rfl⟩).2

theorem Station.claim_mover_ne {st : Station} {m : MoverId} (h : st.claimedZones m = []) {z : Zone} (hz : z ∈ st.zones)
    {c : WaitClaim} (hc : c ∈ z.waiting) : c.mover ≠ m := by
  rintro rfl
  obtain ⟨k, hk⟩ := List.mem_iff_getElem?.1 hz
  have hrange : k ∈ st.localZones := List.mem_range.2 (List.getElem?_eq_some_iff.1 hk).1
  refine List.filter_eq_nil_iff.1 h k hrange ?_
  simp only [Station.claims, Station.zone?, hk, Option.any_some, List.any_eq_true, decide_eq_true_eq]
  exact ⟨c, hc, rfl⟩

/-- Of a RESIDENT or VISITOR, and of a STRAY whose mover waits in no list, a forgetting leaves nothing (R17). -/
theorem Station.forget_without {st : Station} {e : Entry} (h : e.state ≠ .handing)
    (hroom : (st.forgetSends e).length ≤ st.sendsFree) (hclaims : e.state ≠ .stray ∨ st.claimedZones e.id = []) :
    (st.forget e).Without e.id := by
  refine (Station.keptByLooks_without e.id).forget h hroom ⟨fun x hx => ?_, fun y hy => ?_⟩
  · simpa using (List.mem_filter.1 hx).2
  · obtain ⟨z, hz, rfl⟩ := List.mem_map.1 hy
    refine ⟨?_, fun c hc => ?_⟩
    · dsimp only
      split
      · rfl
      · next hheld => exact Bool.eq_false_iff.2 hheld
    · obtain ⟨hmem, hkept⟩ := List.mem_filter.1 hc
      rcases hclaims with hs | hnone
      · exact fun hm => of_decide_eq_true hkept ⟨hs, hm⟩
      · exact Station.claim_mover_ne hnone hz hmem

/-- The one entry that the forgotten mover can have is a VISITOR's (R28). -/
theorem Station.forget_visitor {st : Station} {e e' : Entry} (h : e.state ≠ .handing)
    (hroom : (st.forgetSends e).length ≤ st.sendsFree) (he : (st.forget e).entry? e.id = some e') :
    e'.state = .visitor := by
  have hall := (Station.keptByLooks_visitor e.id).forget h hroom fun x hx hid =>
    absurd hid (by simpa using (List.mem_filter.1 hx).2)
  exact hall e' (Station.entry?_mem he) (Station.entry?_id he)

/-! ## The command (R16) -/

/-- FORGET in JOINING, ONLINE or MAINTENANCE with a mover ID in range. -/
theorem exec_forget {s : State} (h : s.station.mode.started = true) (q : Nat) {m : Nat} (hlow : 1 ≤ m)
    (hhigh : m ≤ 4095) :
    exec (.forget q m) s = .next (match s.station.entry? m with
      | none => s.answerPlain q .notFound
      | some e => s.forgetEntry q e) := by
  refine congrArg Host.Outcome.next (s.decide_taken _ q h ?_)
  simp only [moverParamOk, Bool.and_eq_true, decide_eq_true_eq]
  exact ⟨hlow, hhigh⟩

theorem exec_forget_entry {s : State} (h : s.station.mode.started = true) (q : Nat) {e : Entry} (hlow : 1 ≤ e.id)
    (hhigh : e.id ≤ 4095) (he : s.station.entry? e.id = some e) :
    exec (.forget q e.id) s = .next (s.forgetEntry q e) := by
  rw [exec_forget h q hlow hhigh, he]

/-- Settles O18, by the cases of R16: the sends by `Station.forgetSends_…`, and what is left by `Station.forget_eq`, which
takes the records away in one step, and by what no examination changes (`Station.KeptByLooks`). -/
theorem forgetTellsAndFrees : Obligations.ForgetTellsAndFrees := by
  intro q m s hstarted hlow hhigh hout _
  refine ⟨fun hnone => ?_, fun e he => ?_⟩
  · rw [exec_forget hstarted q hlow hhigh, hnone]
    rfl
  obtain rfl := Station.entry?_id he
  have hexec := exec_forget_entry hstarted q hlow hhigh he
  intro neighbour
  refine ⟨Station.forgetSends_visitor, fun hs => ?resident, fun hs => ?handing, fun hs hfew => ?busy, fun hs hroom => ?ok⟩
  case resident =>
    exact ⟨runsOf e.owedZones, (s.station.sentClaim e).toList, pairwise_runsOf (pairwise_foldr_insertZone _), runsOf_pos,
      fun g => mem_runsOf.trans Entry.mem_owedZones, s.station.mem_sentClaim e, Option.length_toList_le,
      Station.forgetSends_resident hs⟩
  case handing =>
    rw [hexec, State.forgetEntry, if_pos hs]
    rfl
  case busy =>
    rw [hexec, State.forgetEntry, if_neg hs, if_pos (show s.station.sendsFree < _ from hfew)]
    rfl
  case ok =>
    obtain ⟨later, hlater⟩ := Station.forget_sendList hs hroom
    refine ⟨s.station.forget e, later, ?_, Station.forget_kept _ _, (Station.forget_outbox hs hroom).trans hout, hlater,
      ?_, fun hstray => ⟨Station.forgetSends_stray hstray, fun e' => Station.forget_visitor hs hroom,
        fun hnone => (Station.forget_without hs hroom (.inr hnone)).entry?⟩,
      fun hns => ?_, fun k z hz => ⟨fun hheld hw => ?_, fun hheld hne => ?_⟩, fun k coil => Station.forget_coil hs hroom⟩
    · rw [hexec, State.forgetEntry, if_neg hs,
        if_neg (show ¬ s.station.sendsFree < _ from Nat.not_lt.2 hroom)]
      rfl
    · rw [Station.forget_eq hs hroom, Station.forgetZones_eq _ hs]
      rfl
    · have hgone := Station.forget_without hs hroom (.inl hns)
      exact ⟨hgone.entry?, hgone.holdings, hgone.claimedZones⟩
    · exact Station.forget_zone hs hroom (Station.forgotten_zone_held hz hheld hw) (.inr rfl)
    · refine Station.forget_zone hs hroom (Station.forgotten_zone_other hz hheld) (.inl ?_)
      split <;> exact hne

end Sys2Proof.Machine
end
